-- ==== Sys2Proof/Word.lean ====
section
/-! DEFINITION. The word types of the machine (00_scope.md R9, R17, R21). All values the manual adds, shifts,
masks or slices are bit vectors; bit 0 is the least significant bit. -/

namespace Sys2Proof

/-- A byte, 8 bits (20_memory.md R70). -/
abbrev Byte := BitVec 8

/-- A word, 32 bits; an instruction word too (30_encoding.md R120). -/
abbrev Word32 := BitVec 32

/-- A doubleword: the content of a general register, and a virtual address (00_scope.md R5, 10_state.md R38). -/
abbrev Word := BitVec 64

/-- A five-bit register field (30_encoding.md R121). -/
abbrev Reg := BitVec 5

/-- `sext_64(v)` (00_scope.md R10). -/
def sext64 {w : Nat} (v : BitVec w) : Word := v.signExtend 64

/-- `zext_64(v)` (00_scope.md R10). -/
def zext64 {w : Nat} (v : BitVec w) : Word := v.setWidth 64

/-- The low word `v[31:0]`. -/
def low32 (v : Word) : Word32 := v.setWidth 32

end Sys2Proof
end

