-- ==== Sys2Proof/Machine/Flags.lean ====
section
/-! DEFINITION. The conditions the instructions compute. The CPU has no flags (10_state.md R37): overflow is an
exception, a comparison writes 0 or 1 to a register or decides a branch, a trap or a move. -/

namespace Sys2Proof.Machine

/-- `NotWordValue(v)`: bits 63..31 are not all equal, that is, `v` is not its low word sign-extended
(00_scope.md R10). -/
def notWordValue (v : Word) : Bool := v != sext64 (low32 v)

/-- `32_bit_arithmetic_overflow` of a 64-bit sum or difference of word values: `temp[32] != temp[31]` (00_scope.md
R10, 42_alu.md R245). -/
def wordOverflow (temp : Word) : Bool := temp.getLsbD 32 != temp.getLsbD 31

/-- The integer is outside the range of 64-bit two's complement (42_alu.md R240, R249, R251). -/
def doubleOverflow (n : Int) : Bool := decide (n < -2 ^ 63) || decide (2 ^ 63 - 1 < n)

/-- `a <s b`, on all 64 bits (00_scope.md R9). -/
def lessSigned (a b : Word) : Bool := decide (a.toInt < b.toInt)

/-- `a <u b`, on all 64 bits. -/
def lessUnsigned (a b : Word) : Bool := decide (a.toNat < b.toNat)

/-- The result of a comparison: 1 or 0, zero-extended (42_alu.md R234). -/
def truthValue (c : Bool) : Word := if c then 1#64 else 0#64

/-- `signed(v) < 0`: bit 63 is 1 (45_jump_branch.md R331). -/
def negative (v : Word) : Bool := v.getLsbD 63

/-- `signed(v) <= 0`: "sign bit is 1 or value is zero" (45_jump_branch.md R331). -/
def notPositive (v : Word) : Bool := negative v || v == 0#64

end Sys2Proof.Machine
end

