-- ==== Sys2Proof/Config.lean ====
section
/-! DEFINITION. What an implementation fixes. The launch parameters (00_scope.md R7, 10_state.md R56,
70_reset_and_hazards.md R495) are plain data, held by State and constant over a run. The free values of the manual
and the functions that only a coprocessor defines are opaque constants: nothing can be proved of their values
(notes/assumptions 6, 7, 8, 12, 28). -/

namespace Sys2Proof

/-- The four architecture levels (00_scope.md R2, R6). -/
inductive Level where
  | I | II | III | IV
  deriving DecidableEq, Repr

/-- The rank of a level; the levels are inclusive (00_scope.md R2). -/
def Level.rank : Level → Nat
  | .I => 1
  | .II => 2
  | .III => 3
  | .IV => 4

/-- The execution modes the source names (60_exceptions.md R470). -/
inductive Mode where
  | user | supervisor | kernel
  deriving DecidableEq, Repr

/-- The memory access types (20_memory.md R91, R92, R95). -/
inductive AccessType where
  | uncached | cachedNoncoherent | cachedCoherent
  deriving DecidableEq, Repr

/-- Whether an access is a fetch, a load or a store: the `IorD` and `LorS` arguments of AddressTranslation
(20_memory.md R86), and the `kind` an exception records (60_exceptions.md R441). -/
inductive AccessKind where
  | fetch | load | store
  deriving DecidableEq, Repr

/-- What AddressTranslation answers for a region (20_memory.md R86, 60_exceptions.md R444, R445). -/
inductive MapAnswer where
  /-- Translated: the physical base of the region and its access type. -/
  | mapped (pbase : Nat) (type : AccessType)
  /-- Translated for loads and fetches; a store raises TLB Modified. -/
  | readOnly (pbase : Nat) (type : AccessType)
  /-- No translation present: TLB Refill. -/
  | refill
  /-- A translation marked not valid: TLB Invalid. -/
  | invalid
  /-- An address the mode may not reference: Address Error. -/
  | addressError
  deriving DecidableEq, Repr

/-- One region of the AddressTranslation parameter: the virtual addresses `base` to `base + size - 1`, for the
access kinds it names (20_memory.md R86, R100). -/
structure MapEntry where
  base : Nat
  size : Nat
  fetch : Bool
  load : Bool
  store : Bool
  answer : MapAnswer
  deriving DecidableEq, Repr

/-- One range of physical addresses at which BusErrorAt answers true (60_exceptions.md R448). -/
structure BusErrorRange where
  base : Nat
  size : Nat
  fetch : Bool
  load : Bool
  deriving DecidableEq, Repr

/-- The launch parameters (00_scope.md R7, 10_state.md R54, R56, R57). No instruction changes them
(47_coprocessor.md R423). -/
structure Params where
  /-- `ArchLevel` (00_scope.md R6). -/
  archLevel : Level
  /-- `BigEndianMem` (20_memory.md R74). -/
  bigEndianMem : Bool
  /-- Status bit `RE` (20_memory.md R75). -/
  statusRE : Bool
  /-- The execution mode (60_exceptions.md R470). -/
  mode : Mode
  /-- `StatusFR` (10_state.md R50). -/
  statusFR : Bool
  /-- `CU[0]` to `CU[3]`: bit z is the enable of unit z (47_coprocessor.md R421). -/
  cu : BitVec 4
  /-- `PSIZE` (20_memory.md R72). -/
  psize : Nat
  /-- `AddressTranslation`: the first region that holds the address answers (20_memory.md R86). -/
  translation : List MapEntry
  /-- `BusErrorAt` (60_exceptions.md R448). -/
  busErrors : List BusErrorRange
  /-- `LLblock`, in bytes (41_atomic_coproc_load_store.md R205, note 41). -/
  llBlock : Nat
  /-- The model's own: the launch has the MOVF and MOVT of Appendix B, which the spec describes and refuses
  (47_coprocessor.md R426, note 26). -/
  fpuMoves : Bool
  deriving DecidableEq, Repr

/-- The register sets of a coprocessor unit: general registers `CPR[z,i]`, control registers `CCR[z,i]` and the
condition signal `COC[z]` (10_state.md R46, R47). The width is PRESUMED, note 31. -/
structure CopUnit where
  cpr : Vector Word 32
  ccr : Vector Word 32
  coc : Bool
  deriving DecidableEq, Repr, Inhabited

/-- A unit with every register zero (note 3). -/
def CopUnit.reset : CopUnit where
  cpr := Vector.replicate 32 0#64
  ccr := Vector.replicate 32 0#64
  coc := false

/-- `ResetPC` (10_state.md R57, OPEN): PRESUMED the family's reset address, 70_reset_and_hazards.md R492
(note 4). -/
def Config.resetPC : Word := 0xFFFFFFFFBFC00000#64

/-- The launch parameters of the reset state. `ArchLevel`, `CU`, `ReverseEndian` and `BusErrorAt` have the spec's
defaults (00_scope.md R7); MOVCI is refused, as 47_coprocessor.md R426 says (note 26); the others are DESIGN CHOICE
(notes 7 and 8). -/
def Config.resetParams : Params where
  archLevel := .IV
  bigEndianMem := true
  statusRE := false
  mode := .user
  statusFR := true
  cu := 0#4
  psize := 64
  translation := [⟨0, 2 ^ 64, true, true, true, .mapped 0 .cachedNoncoherent⟩]
  busErrors := []
  llBlock := 8
  fpuMoves := false

/-- Free value: an undefined 64-bit value. The first argument is the State's `ticks`, the second tells apart the
draws of one instruction (note 12). -/
opaque Config.freeWord : Nat → Nat → Word

/-- Free value: an unstated choice between two outcomes (note 12). -/
opaque Config.freeBit : Nat → Nat → Bool

/-- `COP_LW(2, rt, memword)`, a parameter (10_state.md R48): unit 2 after it is supplied with a word (note 28). -/
opaque Config.cop2LoadWord : Reg → Word32 → CopUnit → CopUnit

/-- `COP_LD(2, rt, memdouble)`, a parameter (10_state.md R48; note 28). -/
opaque Config.cop2LoadDouble : Reg → Word → CopUnit → CopUnit

/-- `COP_SW(2, rt)`, a parameter (10_state.md R48): unit 2 after it has supplied a word, and the word (note 28). -/
opaque Config.cop2StoreWord : Reg → CopUnit → CopUnit × Word32

/-- `COP_SD(2, rt)`, a parameter (10_state.md R48; note 28). -/
opaque Config.cop2StoreDouble : Reg → CopUnit → CopUnit × Word

end Sys2Proof
end

