-- ==== Sys2Proof/Syntax.lean ====
section
/-! DEFINITION. The instructions: one constructor per row of spec/opcode_table.json, with the row's fields in the
row's order (30_encoding.md R121, R150). `brk` is BREAK, whose name is a word of Lean's own. Registers of a
coprocessor (`rt` of the coprocessor transfers, `fd`, `fs`) are numbered by the same five-bit fields. -/

namespace Sys2Proof

inductive Instr where
  -- CPU loads and stores, normal (40_load_store.md)
  /-- LB, MIPS I (R165). -/
  | lb (base rt : Reg) (offset : BitVec 16)
  /-- LBU, MIPS I (R166). -/
  | lbu (base rt : Reg) (offset : BitVec 16)
  /-- LH, MIPS I (R167). -/
  | lh (base rt : Reg) (offset : BitVec 16)
  /-- LHU, MIPS I (R168). -/
  | lhu (base rt : Reg) (offset : BitVec 16)
  /-- LW, MIPS I (R169). -/
  | lw (base rt : Reg) (offset : BitVec 16)
  /-- LWU, MIPS III (R170). -/
  | lwu (base rt : Reg) (offset : BitVec 16)
  /-- LD, MIPS III (R171). -/
  | ld (base rt : Reg) (offset : BitVec 16)
  /-- SB, MIPS I (R172). -/
  | sb (base rt : Reg) (offset : BitVec 16)
  /-- SH, MIPS I (R173). -/
  | sh (base rt : Reg) (offset : BitVec 16)
  /-- SW, MIPS I (R174). -/
  | sw (base rt : Reg) (offset : BitVec 16)
  /-- SD, MIPS III (R175). -/
  | sd (base rt : Reg) (offset : BitVec 16)
  -- CPU loads and stores, unaligned (40_load_store.md)
  /-- LWL, MIPS I (R182). -/
  | lwl (base rt : Reg) (offset : BitVec 16)
  /-- LWR, MIPS I (R183). -/
  | lwr (base rt : Reg) (offset : BitVec 16)
  /-- SWL, MIPS I (R184). -/
  | swl (base rt : Reg) (offset : BitVec 16)
  /-- SWR, MIPS I (R185). -/
  | swr (base rt : Reg) (offset : BitVec 16)
  /-- LDL, MIPS III (R186). -/
  | ldl (base rt : Reg) (offset : BitVec 16)
  /-- LDR, MIPS III (R187). -/
  | ldr (base rt : Reg) (offset : BitVec 16)
  /-- SDL, MIPS III (R188). -/
  | sdl (base rt : Reg) (offset : BitVec 16)
  /-- SDR, MIPS III (R189). -/
  | sdr (base rt : Reg) (offset : BitVec 16)
  -- Atomic update (41_atomic_coproc_load_store.md)
  /-- LL, MIPS II (R200). -/
  | ll (base rt : Reg) (offset : BitVec 16)
  /-- LLD, MIPS III (R201). -/
  | lld (base rt : Reg) (offset : BitVec 16)
  /-- SC, MIPS II (R202). -/
  | sc (base rt : Reg) (offset : BitVec 16)
  /-- SCD, MIPS III (R204). -/
  | scd (base rt : Reg) (offset : BitVec 16)
  -- Coprocessor loads and stores (41_atomic_coproc_load_store.md)
  /-- LWC1, MIPS I (R213). -/
  | lwc1 (base rt : Reg) (offset : BitVec 16)
  /-- LWC2, MIPS I (R213). -/
  | lwc2 (base rt : Reg) (offset : BitVec 16)
  /-- LDC1, MIPS II (R214). -/
  | ldc1 (base rt : Reg) (offset : BitVec 16)
  /-- LDC2, MIPS II (R214). -/
  | ldc2 (base rt : Reg) (offset : BitVec 16)
  /-- SWC1, MIPS I (R215). -/
  | swc1 (base rt : Reg) (offset : BitVec 16)
  /-- SWC2, MIPS I (R215). -/
  | swc2 (base rt : Reg) (offset : BitVec 16)
  /-- SDC1, MIPS II (R216). -/
  | sdc1 (base rt : Reg) (offset : BitVec 16)
  /-- SDC2, MIPS II (R216). -/
  | sdc2 (base rt : Reg) (offset : BitVec 16)
  -- Indexed floating-point loads and stores (41_atomic_coproc_load_store.md)
  /-- LWXC1, MIPS IV (R221). -/
  | lwxc1 (base index fd : Reg)
  /-- LDXC1, MIPS IV (R222). -/
  | ldxc1 (base index fd : Reg)
  /-- SWXC1, MIPS IV (R223). -/
  | swxc1 (base index fs : Reg)
  /-- SDXC1, MIPS IV (R224). -/
  | sdxc1 (base index fs : Reg)
  -- ALU, immediate operand (42_alu.md)
  /-- ADDI, MIPS I (R232). -/
  | addi (rs rt : Reg) (immediate : BitVec 16)
  /-- ADDIU, MIPS I (R233). -/
  | addiu (rs rt : Reg) (immediate : BitVec 16)
  /-- SLTI, MIPS I (R234). -/
  | slti (rs rt : Reg) (immediate : BitVec 16)
  /-- SLTIU, MIPS I (R235). -/
  | sltiu (rs rt : Reg) (immediate : BitVec 16)
  /-- ANDI, MIPS I (R236). -/
  | andi (rs rt : Reg) (immediate : BitVec 16)
  /-- ORI, MIPS I (R237). -/
  | ori (rs rt : Reg) (immediate : BitVec 16)
  /-- XORI, MIPS I (R238). -/
  | xori (rs rt : Reg) (immediate : BitVec 16)
  /-- DADDI, MIPS III (R240). -/
  | daddi (rs rt : Reg) (immediate : BitVec 16)
  /-- DADDIU, MIPS III (R241). -/
  | daddiu (rs rt : Reg) (immediate : BitVec 16)
  /-- LUI, MIPS I (R239). -/
  | lui (rt : Reg) (immediate : BitVec 16)
  -- ALU, three-operand (42_alu.md)
  /-- ADD, MIPS I (R245). -/
  | add (rs rt rd : Reg)
  /-- ADDU, MIPS I (R246). -/
  | addu (rs rt rd : Reg)
  /-- SUB, MIPS I (R247). -/
  | sub (rs rt rd : Reg)
  /-- SUBU, MIPS I (R248). -/
  | subu (rs rt rd : Reg)
  /-- DADD, MIPS III (R249). -/
  | dadd (rs rt rd : Reg)
  /-- DADDU, MIPS III (R250). -/
  | daddu (rs rt rd : Reg)
  /-- DSUB, MIPS III (R251). -/
  | dsub (rs rt rd : Reg)
  /-- DSUBU, MIPS III (R252). -/
  | dsubu (rs rt rd : Reg)
  /-- SLT, MIPS I (R253). -/
  | slt (rs rt rd : Reg)
  /-- SLTU, MIPS I (R254). -/
  | sltu (rs rt rd : Reg)
  /-- AND, MIPS I (R255). -/
  | and (rs rt rd : Reg)
  /-- OR, MIPS I (R256). -/
  | or (rs rt rd : Reg)
  /-- XOR, MIPS I (R257). -/
  | xor (rs rt rd : Reg)
  /-- NOR, MIPS I (R258). -/
  | nor (rs rt rd : Reg)
  -- Shifts (43_shift.md)
  /-- SLL, MIPS I (R271). -/
  | sll (rt rd : Reg) (sa : BitVec 5)
  /-- SRL, MIPS I (R272). -/
  | srl (rt rd : Reg) (sa : BitVec 5)
  /-- SRA, MIPS I (R273). -/
  | sra (rt rd : Reg) (sa : BitVec 5)
  /-- DSLL, MIPS III (R277). -/
  | dsll (rt rd : Reg) (sa : BitVec 5)
  /-- DSRL, MIPS III (R278). -/
  | dsrl (rt rd : Reg) (sa : BitVec 5)
  /-- DSRA, MIPS III (R279). -/
  | dsra (rt rd : Reg) (sa : BitVec 5)
  /-- DSLL32, MIPS III (R280). -/
  | dsll32 (rt rd : Reg) (sa : BitVec 5)
  /-- DSRL32, MIPS III (R281). -/
  | dsrl32 (rt rd : Reg) (sa : BitVec 5)
  /-- DSRA32, MIPS III (R282). -/
  | dsra32 (rt rd : Reg) (sa : BitVec 5)
  /-- SLLV, MIPS I (R274). -/
  | sllv (rs rt rd : Reg)
  /-- SRLV, MIPS I (R275). -/
  | srlv (rs rt rd : Reg)
  /-- SRAV, MIPS I (R276). -/
  | srav (rs rt rd : Reg)
  /-- DSLLV, MIPS III (R283). -/
  | dsllv (rs rt rd : Reg)
  /-- DSRLV, MIPS III (R284). -/
  | dsrlv (rs rt rd : Reg)
  /-- DSRAV, MIPS III (R285). -/
  | dsrav (rs rt rd : Reg)
  -- Multiply, divide, HI and LO (44_muldiv.md)
  /-- MULT, MIPS I (R303). -/
  | mult (rs rt : Reg)
  /-- MULTU, MIPS I (R304). -/
  | multu (rs rt : Reg)
  /-- DIV, MIPS I (R305). -/
  | div (rs rt : Reg)
  /-- DIVU, MIPS I (R306). -/
  | divu (rs rt : Reg)
  /-- DMULT, MIPS III (R307). -/
  | dmult (rs rt : Reg)
  /-- DMULTU, MIPS III (R308). -/
  | dmultu (rs rt : Reg)
  /-- DDIV, MIPS III (R309). -/
  | ddiv (rs rt : Reg)
  /-- DDIVU, MIPS III (R310). -/
  | ddivu (rs rt : Reg)
  /-- MFHI, MIPS I (R311). -/
  | mfhi (rd : Reg)
  /-- MTHI, MIPS I (R312). -/
  | mthi (rs : Reg)
  /-- MFLO, MIPS I (R313). -/
  | mflo (rd : Reg)
  /-- MTLO, MIPS I (R314). -/
  | mtlo (rs : Reg)
  -- Jumps and branches (45_jump_branch.md)
  /-- J, MIPS I (R336). -/
  | j (instrIndex : BitVec 26)
  /-- JAL, MIPS I (R337). -/
  | jal (instrIndex : BitVec 26)
  /-- JR, MIPS I (R340). -/
  | jr (rs : Reg)
  /-- JALR, MIPS I (R341). -/
  | jalr (rs rd : Reg)
  /-- BEQ, MIPS I (R345). -/
  | beq (rs rt : Reg) (offset : BitVec 16)
  /-- BNE, MIPS I (R346). -/
  | bne (rs rt : Reg) (offset : BitVec 16)
  /-- BLEZ, MIPS I (R347). -/
  | blez (rs : Reg) (offset : BitVec 16)
  /-- BGTZ, MIPS I (R348). -/
  | bgtz (rs : Reg) (offset : BitVec 16)
  /-- BEQL, MIPS II (R349). -/
  | beql (rs rt : Reg) (offset : BitVec 16)
  /-- BNEL, MIPS II (R350). -/
  | bnel (rs rt : Reg) (offset : BitVec 16)
  /-- BLEZL, MIPS II (R351). -/
  | blezl (rs : Reg) (offset : BitVec 16)
  /-- BGTZL, MIPS II (R352). -/
  | bgtzl (rs : Reg) (offset : BitVec 16)
  /-- BLTZ, MIPS I (R354). -/
  | bltz (rs : Reg) (offset : BitVec 16)
  /-- BGEZ, MIPS I (R355). -/
  | bgez (rs : Reg) (offset : BitVec 16)
  /-- BLTZL, MIPS II (R356). -/
  | bltzl (rs : Reg) (offset : BitVec 16)
  /-- BGEZL, MIPS II (R357). -/
  | bgezl (rs : Reg) (offset : BitVec 16)
  /-- BLTZAL, MIPS I (R358). -/
  | bltzal (rs : Reg) (offset : BitVec 16)
  /-- BGEZAL, MIPS I (R359). -/
  | bgezal (rs : Reg) (offset : BitVec 16)
  /-- BLTZALL, MIPS II (R360). -/
  | bltzall (rs : Reg) (offset : BitVec 16)
  /-- BGEZALL, MIPS II (R361). -/
  | bgezall (rs : Reg) (offset : BitVec 16)
  -- Miscellaneous (46_misc.md)
  /-- SYSCALL, MIPS I (R381). -/
  | syscall (code : BitVec 20)
  /-- BREAK, MIPS I (R382). -/
  | brk (code : BitVec 20)
  /-- TGE, MIPS II (R386). -/
  | tge (rs rt : Reg) (code : BitVec 10)
  /-- TGEU, MIPS II (R387). -/
  | tgeu (rs rt : Reg) (code : BitVec 10)
  /-- TLT, MIPS II (R388). -/
  | tlt (rs rt : Reg) (code : BitVec 10)
  /-- TLTU, MIPS II (R389). -/
  | tltu (rs rt : Reg) (code : BitVec 10)
  /-- TEQ, MIPS II (R390). -/
  | teq (rs rt : Reg) (code : BitVec 10)
  /-- TNE, MIPS II (R391). -/
  | tne (rs rt : Reg) (code : BitVec 10)
  /-- TGEI, MIPS II (R392). -/
  | tgei (rs : Reg) (immediate : BitVec 16)
  /-- TGEIU, MIPS II (R393). -/
  | tgeiu (rs : Reg) (immediate : BitVec 16)
  /-- TLTI, MIPS II (R394). -/
  | tlti (rs : Reg) (immediate : BitVec 16)
  /-- TLTIU, MIPS II (R395). -/
  | tltiu (rs : Reg) (immediate : BitVec 16)
  /-- TEQI, MIPS II (R396). -/
  | teqi (rs : Reg) (immediate : BitVec 16)
  /-- TNEI, MIPS II (R397). -/
  | tnei (rs : Reg) (immediate : BitVec 16)
  /-- SYNC, MIPS II (R400). -/
  | sync (stype : BitVec 5)
  /-- MOVN, MIPS IV (R405). -/
  | movn (rs rt rd : Reg)
  /-- MOVZ, MIPS IV (R406). -/
  | movz (rs rt rd : Reg)
  /-- PREF, MIPS IV (R410). -/
  | pref (base : Reg) (hint : BitVec 5) (offset : BitVec 16)
  /-- PREFX, MIPS IV (R411). -/
  | prefx (base index : Reg) (hint : BitVec 5)
  -- Coprocessor instructions (47_coprocessor.md)
  /-- COP0, MIPS I (R422). -/
  | cop0 (co : BitVec 1) (copFun : BitVec 25)
  /-- COP1, MIPS I (R422). -/
  | cop1 (co : BitVec 1) (copFun : BitVec 25)
  /-- COP2, MIPS I (R422). -/
  | cop2 (co : BitVec 1) (copFun : BitVec 25)
  /-- MOVCI, MIPS IV (R426). -/
  | movci (rs : Reg) (cc : BitVec 3) (tf : BitVec 1) (rd : Reg)
  deriving DecidableEq, Repr

end Sys2Proof
end

