-- ==== Sys2Proof/Decode.lean ====
section
/-! DEFINITION. The decoder and the encoder, each written from the tables of 30_encoding.md (R121 to R140) and the
layouts of the instruction rules. The decoder is total: a word that is no instruction of the table is answered by the
name of what it is. -/

namespace Sys2Proof

/-- What a word decodes to (30_encoding.md R130 to R140). -/
inductive Decoded where
  /-- An instruction of the table, with every required-zero field zero. -/
  | instr (i : Instr)
  /-- A word that selects an instruction of this level and has a non-zero bit in a required-zero field (R140). -/
  | requiredZero (level : Level)
  /-- A COP1X word holding one of the eight multiply-accumulate functions (47_coprocessor.md R425). -/
  | cop1xArithmetic
  /-- A COP1X word with any other function (47_coprocessor.md R425). -/
  | cop1xReserved
  /-- A word no row selects (R137). -/
  | reserved
  deriving DecidableEq, Repr

/-! ## The fields (R121) -/

def opcodeOf (w : Word32) : BitVec 6 := w.extractLsb' 26 6
def rsOf (w : Word32) : Reg := w.extractLsb' 21 5
def rtOf (w : Word32) : Reg := w.extractLsb' 16 5
def rdOf (w : Word32) : Reg := w.extractLsb' 11 5
def saOf (w : Word32) : BitVec 5 := w.extractLsb' 6 5
def functionOf (w : Word32) : BitVec 6 := w.extractLsb' 0 6
def immediateOf (w : Word32) : BitVec 16 := w.extractLsb' 0 16
def indexOf (w : Word32) : BitVec 26 := w.extractLsb' 0 26
/-- `code` of SYSCALL and BREAK. -/
def code20Of (w : Word32) : BitVec 20 := w.extractLsb' 6 20
/-- `code` of the trap instructions. -/
def code10Of (w : Word32) : BitVec 10 := w.extractLsb' 6 10
def coOf (w : Word32) : BitVec 1 := w.extractLsb' 25 1
def copFunOf (w : Word32) : BitVec 25 := w.extractLsb' 0 25
/-- `cc`, bit 17 (required zero) and `tf` of MOVCI (47_coprocessor.md R426). -/
def ccOf (w : Word32) : BitVec 3 := w.extractLsb' 18 3
def bit17Of (w : Word32) : BitVec 1 := w.extractLsb' 17 1
def tfOf (w : Word32) : BitVec 1 := w.extractLsb' 16 1

/-! ## The architecture level of each instruction (the Format lines, 30_encoding.md R141) -/

/-- The level at which an instruction is first defined. -/
def Instr.level : Instr → Level
  | .lb _ _ _ | .lbu _ _ _ | .lh _ _ _ | .lhu _ _ _ | .lw _ _ _ | .sb _ _ _ | .sh _ _ _ | .sw _ _ _
  | .lwl _ _ _ | .lwr _ _ _ | .swl _ _ _ | .swr _ _ _ | .lwc1 _ _ _ | .lwc2 _ _ _ | .swc1 _ _ _ | .swc2 _ _ _
  | .addi _ _ _ | .addiu _ _ _ | .slti _ _ _ | .sltiu _ _ _ | .andi _ _ _ | .ori _ _ _ | .xori _ _ _
  | .lui _ _ | .add _ _ _ | .addu _ _ _ | .sub _ _ _ | .subu _ _ _ | .slt _ _ _ | .sltu _ _ _ | .and _ _ _
  | .or _ _ _ | .xor _ _ _ | .nor _ _ _ | .sll _ _ _ | .srl _ _ _ | .sra _ _ _ | .sllv _ _ _ | .srlv _ _ _
  | .srav _ _ _ | .mult _ _ | .multu _ _ | .div _ _ | .divu _ _ | .mfhi _ | .mthi _ | .mflo _ | .mtlo _
  | .j _ | .jal _ | .jr _ | .jalr _ _ | .beq _ _ _ | .bne _ _ _ | .blez _ _ | .bgtz _ _ | .bltz _ _
  | .bgez _ _ | .bltzal _ _ | .bgezal _ _ | .syscall _ | .brk _ | .cop0 _ _ | .cop1 _ _ | .cop2 _ _ => .I
  | .ll _ _ _ | .sc _ _ _ | .ldc1 _ _ _ | .ldc2 _ _ _ | .sdc1 _ _ _ | .sdc2 _ _ _ | .beql _ _ _ | .bnel _ _ _
  | .blezl _ _ | .bgtzl _ _ | .bltzl _ _ | .bgezl _ _ | .bltzall _ _ | .bgezall _ _ | .tge _ _ _
  | .tgeu _ _ _ | .tlt _ _ _ | .tltu _ _ _ | .teq _ _ _ | .tne _ _ _ | .tgei _ _ | .tgeiu _ _ | .tlti _ _
  | .tltiu _ _ | .teqi _ _ | .tnei _ _ | .sync _ => .II
  | .lwu _ _ _ | .ld _ _ _ | .sd _ _ _ | .ldl _ _ _ | .ldr _ _ _ | .sdl _ _ _ | .sdr _ _ _ | .lld _ _ _
  | .scd _ _ _ | .daddi _ _ _ | .daddiu _ _ _ | .dadd _ _ _ | .daddu _ _ _ | .dsub _ _ _ | .dsubu _ _ _
  | .dsll _ _ _ | .dsrl _ _ _ | .dsra _ _ _ | .dsll32 _ _ _ | .dsrl32 _ _ _ | .dsra32 _ _ _ | .dsllv _ _ _
  | .dsrlv _ _ _ | .dsrav _ _ _ | .dmult _ _ | .dmultu _ _ | .ddiv _ _ | .ddivu _ _ => .III
  | .lwxc1 _ _ _ | .ldxc1 _ _ _ | .swxc1 _ _ _ | .sdxc1 _ _ _ | .movn _ _ _ | .movz _ _ _ | .pref _ _ _
  | .prefx _ _ _ | .movci _ _ _ _ => .IV

/-- The instruction, if the required-zero fields of its word are zero (R140). -/
def Decoded.ifZero (zero : Bool) (i : Instr) : Decoded :=
  if zero then .instr i else .requiredZero i.level

/-! ## Decoding -/

/-- Opcode SPECIAL: by `function` (R132). -/
def decodeSpecial (w : Word32) : Decoded :=
  match functionOf w with
  | 0b000000#6 => .ifZero (rsOf w == 0#5) (.sll (rtOf w) (rdOf w) (saOf w))
  | 0b000001#6 => .ifZero (saOf w == 0#5 && bit17Of w == 0#1) (.movci (rsOf w) (ccOf w) (tfOf w) (rdOf w))
  | 0b000010#6 => .ifZero (rsOf w == 0#5) (.srl (rtOf w) (rdOf w) (saOf w))
  | 0b000011#6 => .ifZero (rsOf w == 0#5) (.sra (rtOf w) (rdOf w) (saOf w))
  | 0b000100#6 => .ifZero (saOf w == 0#5) (.sllv (rsOf w) (rtOf w) (rdOf w))
  | 0b000110#6 => .ifZero (saOf w == 0#5) (.srlv (rsOf w) (rtOf w) (rdOf w))
  | 0b000111#6 => .ifZero (saOf w == 0#5) (.srav (rsOf w) (rtOf w) (rdOf w))
  | 0b001000#6 => .ifZero (rtOf w == 0#5 && rdOf w == 0#5 && saOf w == 0#5) (.jr (rsOf w))
  | 0b001001#6 => .ifZero (rtOf w == 0#5 && saOf w == 0#5) (.jalr (rsOf w) (rdOf w))
  | 0b001010#6 => .ifZero (saOf w == 0#5) (.movz (rsOf w) (rtOf w) (rdOf w))
  | 0b001011#6 => .ifZero (saOf w == 0#5) (.movn (rsOf w) (rtOf w) (rdOf w))
  | 0b001100#6 => .instr (.syscall (code20Of w))
  | 0b001101#6 => .instr (.brk (code20Of w))
  | 0b001111#6 => .ifZero (rsOf w == 0#5 && rtOf w == 0#5 && rdOf w == 0#5) (.sync (saOf w))
  | 0b010000#6 => .ifZero (rsOf w == 0#5 && rtOf w == 0#5 && saOf w == 0#5) (.mfhi (rdOf w))
  | 0b010001#6 => .ifZero (rtOf w == 0#5 && rdOf w == 0#5 && saOf w == 0#5) (.mthi (rsOf w))
  | 0b010010#6 => .ifZero (rsOf w == 0#5 && rtOf w == 0#5 && saOf w == 0#5) (.mflo (rdOf w))
  | 0b010011#6 => .ifZero (rtOf w == 0#5 && rdOf w == 0#5 && saOf w == 0#5) (.mtlo (rsOf w))
  | 0b010100#6 => .ifZero (saOf w == 0#5) (.dsllv (rsOf w) (rtOf w) (rdOf w))
  | 0b010110#6 => .ifZero (saOf w == 0#5) (.dsrlv (rsOf w) (rtOf w) (rdOf w))
  | 0b010111#6 => .ifZero (saOf w == 0#5) (.dsrav (rsOf w) (rtOf w) (rdOf w))
  | 0b011000#6 => .ifZero (rdOf w == 0#5 && saOf w == 0#5) (.mult (rsOf w) (rtOf w))
  | 0b011001#6 => .ifZero (rdOf w == 0#5 && saOf w == 0#5) (.multu (rsOf w) (rtOf w))
  | 0b011010#6 => .ifZero (rdOf w == 0#5 && saOf w == 0#5) (.div (rsOf w) (rtOf w))
  | 0b011011#6 => .ifZero (rdOf w == 0#5 && saOf w == 0#5) (.divu (rsOf w) (rtOf w))
  | 0b011100#6 => .ifZero (rdOf w == 0#5 && saOf w == 0#5) (.dmult (rsOf w) (rtOf w))
  | 0b011101#6 => .ifZero (rdOf w == 0#5 && saOf w == 0#5) (.dmultu (rsOf w) (rtOf w))
  | 0b011110#6 => .ifZero (rdOf w == 0#5 && saOf w == 0#5) (.ddiv (rsOf w) (rtOf w))
  | 0b011111#6 => .ifZero (rdOf w == 0#5 && saOf w == 0#5) (.ddivu (rsOf w) (rtOf w))
  | 0b100000#6 => .ifZero (saOf w == 0#5) (.add (rsOf w) (rtOf w) (rdOf w))
  | 0b100001#6 => .ifZero (saOf w == 0#5) (.addu (rsOf w) (rtOf w) (rdOf w))
  | 0b100010#6 => .ifZero (saOf w == 0#5) (.sub (rsOf w) (rtOf w) (rdOf w))
  | 0b100011#6 => .ifZero (saOf w == 0#5) (.subu (rsOf w) (rtOf w) (rdOf w))
  | 0b100100#6 => .ifZero (saOf w == 0#5) (.and (rsOf w) (rtOf w) (rdOf w))
  | 0b100101#6 => .ifZero (saOf w == 0#5) (.or (rsOf w) (rtOf w) (rdOf w))
  | 0b100110#6 => .ifZero (saOf w == 0#5) (.xor (rsOf w) (rtOf w) (rdOf w))
  | 0b100111#6 => .ifZero (saOf w == 0#5) (.nor (rsOf w) (rtOf w) (rdOf w))
  | 0b101010#6 => .ifZero (saOf w == 0#5) (.slt (rsOf w) (rtOf w) (rdOf w))
  | 0b101011#6 => .ifZero (saOf w == 0#5) (.sltu (rsOf w) (rtOf w) (rdOf w))
  | 0b101100#6 => .ifZero (saOf w == 0#5) (.dadd (rsOf w) (rtOf w) (rdOf w))
  | 0b101101#6 => .ifZero (saOf w == 0#5) (.daddu (rsOf w) (rtOf w) (rdOf w))
  | 0b101110#6 => .ifZero (saOf w == 0#5) (.dsub (rsOf w) (rtOf w) (rdOf w))
  | 0b101111#6 => .ifZero (saOf w == 0#5) (.dsubu (rsOf w) (rtOf w) (rdOf w))
  | 0b110000#6 => .instr (.tge (rsOf w) (rtOf w) (code10Of w))
  | 0b110001#6 => .instr (.tgeu (rsOf w) (rtOf w) (code10Of w))
  | 0b110010#6 => .instr (.tlt (rsOf w) (rtOf w) (code10Of w))
  | 0b110011#6 => .instr (.tltu (rsOf w) (rtOf w) (code10Of w))
  | 0b110100#6 => .instr (.teq (rsOf w) (rtOf w) (code10Of w))
  | 0b110110#6 => .instr (.tne (rsOf w) (rtOf w) (code10Of w))
  | 0b111000#6 => .ifZero (rsOf w == 0#5) (.dsll (rtOf w) (rdOf w) (saOf w))
  | 0b111010#6 => .ifZero (rsOf w == 0#5) (.dsrl (rtOf w) (rdOf w) (saOf w))
  | 0b111011#6 => .ifZero (rsOf w == 0#5) (.dsra (rtOf w) (rdOf w) (saOf w))
  | 0b111100#6 => .ifZero (rsOf w == 0#5) (.dsll32 (rtOf w) (rdOf w) (saOf w))
  | 0b111110#6 => .ifZero (rsOf w == 0#5) (.dsrl32 (rtOf w) (rdOf w) (saOf w))
  | 0b111111#6 => .ifZero (rsOf w == 0#5) (.dsra32 (rtOf w) (rdOf w) (saOf w))
  | _ => .reserved

/-- Opcode REGIMM: by bits 20..16 (R133). -/
def decodeRegimm (w : Word32) : Decoded :=
  match rtOf w with
  | 0#5 => .instr (.bltz (rsOf w) (immediateOf w))
  | 0b00001#5 => .instr (.bgez (rsOf w) (immediateOf w))
  | 0b00010#5 => .instr (.bltzl (rsOf w) (immediateOf w))
  | 0b00011#5 => .instr (.bgezl (rsOf w) (immediateOf w))
  | 0b01000#5 => .instr (.tgei (rsOf w) (immediateOf w))
  | 0b01001#5 => .instr (.tgeiu (rsOf w) (immediateOf w))
  | 0b01010#5 => .instr (.tlti (rsOf w) (immediateOf w))
  | 0b01011#5 => .instr (.tltiu (rsOf w) (immediateOf w))
  | 0b01100#5 => .instr (.teqi (rsOf w) (immediateOf w))
  | 0b01110#5 => .instr (.tnei (rsOf w) (immediateOf w))
  | 0b10000#5 => .instr (.bltzal (rsOf w) (immediateOf w))
  | 0b10001#5 => .instr (.bgezal (rsOf w) (immediateOf w))
  | 0b10010#5 => .instr (.bltzall (rsOf w) (immediateOf w))
  | 0b10011#5 => .instr (.bgezall (rsOf w) (immediateOf w))
  | _ => .reserved

/-- Opcode COP1X: by `function` (R135, 47_coprocessor.md R425). -/
def decodeCop1x (w : Word32) : Decoded :=
  match functionOf w with
  | 0b000000#6 => .ifZero (rdOf w == 0#5) (.lwxc1 (rsOf w) (rtOf w) (saOf w))
  | 0b000001#6 => .ifZero (rdOf w == 0#5) (.ldxc1 (rsOf w) (rtOf w) (saOf w))
  | 0b001000#6 => .ifZero (saOf w == 0#5) (.swxc1 (rsOf w) (rtOf w) (rdOf w))
  | 0b001001#6 => .ifZero (saOf w == 0#5) (.sdxc1 (rsOf w) (rtOf w) (rdOf w))
  | 0b001111#6 => .ifZero (saOf w == 0#5) (.prefx (rsOf w) (rtOf w) (rdOf w))
  | 0b100000#6 => .cop1xArithmetic
  | 0b100001#6 => .cop1xArithmetic
  | 0b101000#6 => .cop1xArithmetic
  | 0b101001#6 => .cop1xArithmetic
  | 0b110000#6 => .cop1xArithmetic
  | 0b110001#6 => .cop1xArithmetic
  | 0b111000#6 => .cop1xArithmetic
  | 0b111001#6 => .cop1xArithmetic
  | _ => .cop1xReserved

/-- Decode an instruction word by its primary opcode (R130, R131). -/
def decode (w : Word32) : Decoded :=
  match opcodeOf w with
  | 0b000000#6 => decodeSpecial w
  | 0b000001#6 => decodeRegimm w
  | 0b010011#6 => decodeCop1x w
  | 0b000010#6 => .instr (.j (indexOf w))
  | 0b000011#6 => .instr (.jal (indexOf w))
  | 0b000100#6 => .instr (.beq (rsOf w) (rtOf w) (immediateOf w))
  | 0b000101#6 => .instr (.bne (rsOf w) (rtOf w) (immediateOf w))
  | 0b000110#6 => .ifZero (rtOf w == 0#5) (.blez (rsOf w) (immediateOf w))
  | 0b000111#6 => .ifZero (rtOf w == 0#5) (.bgtz (rsOf w) (immediateOf w))
  | 0b001000#6 => .instr (.addi (rsOf w) (rtOf w) (immediateOf w))
  | 0b001001#6 => .instr (.addiu (rsOf w) (rtOf w) (immediateOf w))
  | 0b001010#6 => .instr (.slti (rsOf w) (rtOf w) (immediateOf w))
  | 0b001011#6 => .instr (.sltiu (rsOf w) (rtOf w) (immediateOf w))
  | 0b001100#6 => .instr (.andi (rsOf w) (rtOf w) (immediateOf w))
  | 0b001101#6 => .instr (.ori (rsOf w) (rtOf w) (immediateOf w))
  | 0b001110#6 => .instr (.xori (rsOf w) (rtOf w) (immediateOf w))
  | 0b001111#6 => .ifZero (rsOf w == 0#5) (.lui (rtOf w) (immediateOf w))
  | 0b010000#6 => .instr (.cop0 (coOf w) (copFunOf w))
  | 0b010001#6 => .instr (.cop1 (coOf w) (copFunOf w))
  | 0b010010#6 => .instr (.cop2 (coOf w) (copFunOf w))
  | 0b010100#6 => .instr (.beql (rsOf w) (rtOf w) (immediateOf w))
  | 0b010101#6 => .instr (.bnel (rsOf w) (rtOf w) (immediateOf w))
  | 0b010110#6 => .ifZero (rtOf w == 0#5) (.blezl (rsOf w) (immediateOf w))
  | 0b010111#6 => .ifZero (rtOf w == 0#5) (.bgtzl (rsOf w) (immediateOf w))
  | 0b011000#6 => .instr (.daddi (rsOf w) (rtOf w) (immediateOf w))
  | 0b011001#6 => .instr (.daddiu (rsOf w) (rtOf w) (immediateOf w))
  | 0b011010#6 => .instr (.ldl (rsOf w) (rtOf w) (immediateOf w))
  | 0b011011#6 => .instr (.ldr (rsOf w) (rtOf w) (immediateOf w))
  | 0b100000#6 => .instr (.lb (rsOf w) (rtOf w) (immediateOf w))
  | 0b100001#6 => .instr (.lh (rsOf w) (rtOf w) (immediateOf w))
  | 0b100010#6 => .instr (.lwl (rsOf w) (rtOf w) (immediateOf w))
  | 0b100011#6 => .instr (.lw (rsOf w) (rtOf w) (immediateOf w))
  | 0b100100#6 => .instr (.lbu (rsOf w) (rtOf w) (immediateOf w))
  | 0b100101#6 => .instr (.lhu (rsOf w) (rtOf w) (immediateOf w))
  | 0b100110#6 => .instr (.lwr (rsOf w) (rtOf w) (immediateOf w))
  | 0b100111#6 => .instr (.lwu (rsOf w) (rtOf w) (immediateOf w))
  | 0b101000#6 => .instr (.sb (rsOf w) (rtOf w) (immediateOf w))
  | 0b101001#6 => .instr (.sh (rsOf w) (rtOf w) (immediateOf w))
  | 0b101010#6 => .instr (.swl (rsOf w) (rtOf w) (immediateOf w))
  | 0b101011#6 => .instr (.sw (rsOf w) (rtOf w) (immediateOf w))
  | 0b101100#6 => .instr (.sdl (rsOf w) (rtOf w) (immediateOf w))
  | 0b101101#6 => .instr (.sdr (rsOf w) (rtOf w) (immediateOf w))
  | 0b101110#6 => .instr (.swr (rsOf w) (rtOf w) (immediateOf w))
  | 0b110000#6 => .instr (.ll (rsOf w) (rtOf w) (immediateOf w))
  | 0b110001#6 => .instr (.lwc1 (rsOf w) (rtOf w) (immediateOf w))
  | 0b110010#6 => .instr (.lwc2 (rsOf w) (rtOf w) (immediateOf w))
  | 0b110011#6 => .instr (.pref (rsOf w) (rtOf w) (immediateOf w))
  | 0b110100#6 => .instr (.lld (rsOf w) (rtOf w) (immediateOf w))
  | 0b110101#6 => .instr (.ldc1 (rsOf w) (rtOf w) (immediateOf w))
  | 0b110110#6 => .instr (.ldc2 (rsOf w) (rtOf w) (immediateOf w))
  | 0b110111#6 => .instr (.ld (rsOf w) (rtOf w) (immediateOf w))
  | 0b111000#6 => .instr (.sc (rsOf w) (rtOf w) (immediateOf w))
  | 0b111001#6 => .instr (.swc1 (rsOf w) (rtOf w) (immediateOf w))
  | 0b111010#6 => .instr (.swc2 (rsOf w) (rtOf w) (immediateOf w))
  | 0b111100#6 => .instr (.scd (rsOf w) (rtOf w) (immediateOf w))
  | 0b111101#6 => .instr (.sdc1 (rsOf w) (rtOf w) (immediateOf w))
  | 0b111110#6 => .instr (.sdc2 (rsOf w) (rtOf w) (immediateOf w))
  | 0b111111#6 => .instr (.sd (rsOf w) (rtOf w) (immediateOf w))
  | _ => .reserved

/-! ## Instruction bytes (20_memory.md R78) -/

/-- The value of a sequence of bytes in address order, least significant byte first. -/
def bytesValue : List Byte → Nat
  | [] => 0
  | b :: bs => b.toNat + 256 * bytesValue bs

/-- The value of a sequence of bytes in address order, in the given byte order (20_memory.md R70, R80). -/
def assemble (bigEndian : Bool) (bs : List Byte) : Nat :=
  bytesValue (if bigEndian then bs.reverse else bs)

/-- The `n` low bytes of a value, least significant byte first. -/
def valueBytes : Nat → Nat → List Byte
  | 0, _ => []
  | n + 1, v => BitVec.ofNat 8 v :: valueBytes n (v / 256)

/-- The `n` low bytes of a value in address order, in the given byte order (20_memory.md R81). -/
def disassemble (bigEndian : Bool) (n v : Nat) : List Byte :=
  if bigEndian then (valueBytes n v).reverse else valueBytes n v

/-- Decode the bytes of an instruction as they lie in memory; the length of every instruction is four bytes
(R120, 20_memory.md R78). -/
def decodeBytes (bigEndian : Bool) (bs : List Byte) : Option Decoded :=
  if bs.length = 4 then some (decode (BitVec.ofNat 32 (assemble bigEndian bs))) else none

/-- The instruction the decoder reads from an instruction whose bits are `w`, `nbits` of them; the word is laid out
in memory big-endian and given to the decoder. -/
def decodeTableWord (nbits w : Nat) : Option Instr :=
  match decodeBytes true (disassemble true 4 (w % 2 ^ nbits)) with
  | some (.instr i) => some i
  | _ => none

/-! ## Encoding (R122 to R125) -/

/-- I-type (R122). -/
def iType (op : BitVec 6) (rs rt : Reg) (imm : BitVec 16) : Word32 :=
  (op ++ rs ++ rt ++ imm).cast (by decide)

/-- J-type (R123). -/
def jType (op : BitVec 6) (index : BitVec 26) : Word32 := (op ++ index).cast (by decide)

/-- R-type (R124), also of the COP1X forms (R125). -/
def rType (op : BitVec 6) (rs rt rd : Reg) (sa : BitVec 5) (fn : BitVec 6) : Word32 :=
  (op ++ rs ++ rt ++ rd ++ sa ++ fn).cast (by decide)

/-- SYSCALL and BREAK (R125). -/
def codeType (code : BitVec 20) (fn : BitVec 6) : Word32 := (0b000000#6 ++ code ++ fn).cast (by decide)

/-- Trap on condition (R125). -/
def trapType (rs rt : Reg) (code : BitVec 10) (fn : BitVec 6) : Word32 :=
  (0b000000#6 ++ rs ++ rt ++ code ++ fn).cast (by decide)

/-- COPz (R125). -/
def copType (op : BitVec 6) (co : BitVec 1) (copFun : BitVec 25) : Word32 := (op ++ co ++ copFun).cast (by decide)

/-- MOVCI (47_coprocessor.md R426). -/
def movciType (rs : Reg) (cc : BitVec 3) (tf : BitVec 1) (rd : Reg) : Word32 :=
  (0b000000#6 ++ rs ++ cc ++ 0#1 ++ tf ++ rd ++ 0#5 ++ 0b000001#6).cast (by decide)

/-- The word of an instruction. -/
def encode : Instr → Word32
  | .lb base rt offset => iType 0b100000#6 base rt offset
  | .lbu base rt offset => iType 0b100100#6 base rt offset
  | .lh base rt offset => iType 0b100001#6 base rt offset
  | .lhu base rt offset => iType 0b100101#6 base rt offset
  | .lw base rt offset => iType 0b100011#6 base rt offset
  | .lwu base rt offset => iType 0b100111#6 base rt offset
  | .ld base rt offset => iType 0b110111#6 base rt offset
  | .sb base rt offset => iType 0b101000#6 base rt offset
  | .sh base rt offset => iType 0b101001#6 base rt offset
  | .sw base rt offset => iType 0b101011#6 base rt offset
  | .sd base rt offset => iType 0b111111#6 base rt offset
  | .lwl base rt offset => iType 0b100010#6 base rt offset
  | .lwr base rt offset => iType 0b100110#6 base rt offset
  | .swl base rt offset => iType 0b101010#6 base rt offset
  | .swr base rt offset => iType 0b101110#6 base rt offset
  | .ldl base rt offset => iType 0b011010#6 base rt offset
  | .ldr base rt offset => iType 0b011011#6 base rt offset
  | .sdl base rt offset => iType 0b101100#6 base rt offset
  | .sdr base rt offset => iType 0b101101#6 base rt offset
  | .ll base rt offset => iType 0b110000#6 base rt offset
  | .lld base rt offset => iType 0b110100#6 base rt offset
  | .sc base rt offset => iType 0b111000#6 base rt offset
  | .scd base rt offset => iType 0b111100#6 base rt offset
  | .lwc1 base rt offset => iType 0b110001#6 base rt offset
  | .lwc2 base rt offset => iType 0b110010#6 base rt offset
  | .ldc1 base rt offset => iType 0b110101#6 base rt offset
  | .ldc2 base rt offset => iType 0b110110#6 base rt offset
  | .swc1 base rt offset => iType 0b111001#6 base rt offset
  | .swc2 base rt offset => iType 0b111010#6 base rt offset
  | .sdc1 base rt offset => iType 0b111101#6 base rt offset
  | .sdc2 base rt offset => iType 0b111110#6 base rt offset
  | .lwxc1 base index fd => rType 0b010011#6 base index 0#5 fd 0b000000#6
  | .ldxc1 base index fd => rType 0b010011#6 base index 0#5 fd 0b000001#6
  | .swxc1 base index fs => rType 0b010011#6 base index fs 0#5 0b001000#6
  | .sdxc1 base index fs => rType 0b010011#6 base index fs 0#5 0b001001#6
  | .addi rs rt immediate => iType 0b001000#6 rs rt immediate
  | .addiu rs rt immediate => iType 0b001001#6 rs rt immediate
  | .slti rs rt immediate => iType 0b001010#6 rs rt immediate
  | .sltiu rs rt immediate => iType 0b001011#6 rs rt immediate
  | .andi rs rt immediate => iType 0b001100#6 rs rt immediate
  | .ori rs rt immediate => iType 0b001101#6 rs rt immediate
  | .xori rs rt immediate => iType 0b001110#6 rs rt immediate
  | .daddi rs rt immediate => iType 0b011000#6 rs rt immediate
  | .daddiu rs rt immediate => iType 0b011001#6 rs rt immediate
  | .lui rt immediate => iType 0b001111#6 0#5 rt immediate
  | .add rs rt rd => rType 0b000000#6 rs rt rd 0#5 0b100000#6
  | .addu rs rt rd => rType 0b000000#6 rs rt rd 0#5 0b100001#6
  | .sub rs rt rd => rType 0b000000#6 rs rt rd 0#5 0b100010#6
  | .subu rs rt rd => rType 0b000000#6 rs rt rd 0#5 0b100011#6
  | .dadd rs rt rd => rType 0b000000#6 rs rt rd 0#5 0b101100#6
  | .daddu rs rt rd => rType 0b000000#6 rs rt rd 0#5 0b101101#6
  | .dsub rs rt rd => rType 0b000000#6 rs rt rd 0#5 0b101110#6
  | .dsubu rs rt rd => rType 0b000000#6 rs rt rd 0#5 0b101111#6
  | .slt rs rt rd => rType 0b000000#6 rs rt rd 0#5 0b101010#6
  | .sltu rs rt rd => rType 0b000000#6 rs rt rd 0#5 0b101011#6
  | .and rs rt rd => rType 0b000000#6 rs rt rd 0#5 0b100100#6
  | .or rs rt rd => rType 0b000000#6 rs rt rd 0#5 0b100101#6
  | .xor rs rt rd => rType 0b000000#6 rs rt rd 0#5 0b100110#6
  | .nor rs rt rd => rType 0b000000#6 rs rt rd 0#5 0b100111#6
  | .sll rt rd sa => rType 0b000000#6 0#5 rt rd sa 0b000000#6
  | .srl rt rd sa => rType 0b000000#6 0#5 rt rd sa 0b000010#6
  | .sra rt rd sa => rType 0b000000#6 0#5 rt rd sa 0b000011#6
  | .dsll rt rd sa => rType 0b000000#6 0#5 rt rd sa 0b111000#6
  | .dsrl rt rd sa => rType 0b000000#6 0#5 rt rd sa 0b111010#6
  | .dsra rt rd sa => rType 0b000000#6 0#5 rt rd sa 0b111011#6
  | .dsll32 rt rd sa => rType 0b000000#6 0#5 rt rd sa 0b111100#6
  | .dsrl32 rt rd sa => rType 0b000000#6 0#5 rt rd sa 0b111110#6
  | .dsra32 rt rd sa => rType 0b000000#6 0#5 rt rd sa 0b111111#6
  | .sllv rs rt rd => rType 0b000000#6 rs rt rd 0#5 0b000100#6
  | .srlv rs rt rd => rType 0b000000#6 rs rt rd 0#5 0b000110#6
  | .srav rs rt rd => rType 0b000000#6 rs rt rd 0#5 0b000111#6
  | .dsllv rs rt rd => rType 0b000000#6 rs rt rd 0#5 0b010100#6
  | .dsrlv rs rt rd => rType 0b000000#6 rs rt rd 0#5 0b010110#6
  | .dsrav rs rt rd => rType 0b000000#6 rs rt rd 0#5 0b010111#6
  | .mult rs rt => rType 0b000000#6 rs rt 0#5 0#5 0b011000#6
  | .multu rs rt => rType 0b000000#6 rs rt 0#5 0#5 0b011001#6
  | .div rs rt => rType 0b000000#6 rs rt 0#5 0#5 0b011010#6
  | .divu rs rt => rType 0b000000#6 rs rt 0#5 0#5 0b011011#6
  | .dmult rs rt => rType 0b000000#6 rs rt 0#5 0#5 0b011100#6
  | .dmultu rs rt => rType 0b000000#6 rs rt 0#5 0#5 0b011101#6
  | .ddiv rs rt => rType 0b000000#6 rs rt 0#5 0#5 0b011110#6
  | .ddivu rs rt => rType 0b000000#6 rs rt 0#5 0#5 0b011111#6
  | .mfhi rd => rType 0b000000#6 0#5 0#5 rd 0#5 0b010000#6
  | .mthi rs => rType 0b000000#6 rs 0#5 0#5 0#5 0b010001#6
  | .mflo rd => rType 0b000000#6 0#5 0#5 rd 0#5 0b010010#6
  | .mtlo rs => rType 0b000000#6 rs 0#5 0#5 0#5 0b010011#6
  | .j instrIndex => jType 0b000010#6 instrIndex
  | .jal instrIndex => jType 0b000011#6 instrIndex
  | .jr rs => rType 0b000000#6 rs 0#5 0#5 0#5 0b001000#6
  | .jalr rs rd => rType 0b000000#6 rs 0#5 rd 0#5 0b001001#6
  | .beq rs rt offset => iType 0b000100#6 rs rt offset
  | .bne rs rt offset => iType 0b000101#6 rs rt offset
  | .blez rs offset => iType 0b000110#6 rs 0#5 offset
  | .bgtz rs offset => iType 0b000111#6 rs 0#5 offset
  | .beql rs rt offset => iType 0b010100#6 rs rt offset
  | .bnel rs rt offset => iType 0b010101#6 rs rt offset
  | .blezl rs offset => iType 0b010110#6 rs 0#5 offset
  | .bgtzl rs offset => iType 0b010111#6 rs 0#5 offset
  | .bltz rs offset => iType 0b000001#6 rs 0#5 offset
  | .bgez rs offset => iType 0b000001#6 rs 0b00001#5 offset
  | .bltzl rs offset => iType 0b000001#6 rs 0b00010#5 offset
  | .bgezl rs offset => iType 0b000001#6 rs 0b00011#5 offset
  | .bltzal rs offset => iType 0b000001#6 rs 0b10000#5 offset
  | .bgezal rs offset => iType 0b000001#6 rs 0b10001#5 offset
  | .bltzall rs offset => iType 0b000001#6 rs 0b10010#5 offset
  | .bgezall rs offset => iType 0b000001#6 rs 0b10011#5 offset
  | .syscall code => codeType code 0b001100#6
  | .brk code => codeType code 0b001101#6
  | .tge rs rt code => trapType rs rt code 0b110000#6
  | .tgeu rs rt code => trapType rs rt code 0b110001#6
  | .tlt rs rt code => trapType rs rt code 0b110010#6
  | .tltu rs rt code => trapType rs rt code 0b110011#6
  | .teq rs rt code => trapType rs rt code 0b110100#6
  | .tne rs rt code => trapType rs rt code 0b110110#6
  | .tgei rs immediate => iType 0b000001#6 rs 0b01000#5 immediate
  | .tgeiu rs immediate => iType 0b000001#6 rs 0b01001#5 immediate
  | .tlti rs immediate => iType 0b000001#6 rs 0b01010#5 immediate
  | .tltiu rs immediate => iType 0b000001#6 rs 0b01011#5 immediate
  | .teqi rs immediate => iType 0b000001#6 rs 0b01100#5 immediate
  | .tnei rs immediate => iType 0b000001#6 rs 0b01110#5 immediate
  | .sync stype => rType 0b000000#6 0#5 0#5 0#5 stype 0b001111#6
  | .movn rs rt rd => rType 0b000000#6 rs rt rd 0#5 0b001011#6
  | .movz rs rt rd => rType 0b000000#6 rs rt rd 0#5 0b001010#6
  | .pref base hint offset => iType 0b110011#6 base hint offset
  | .prefx base index hint => rType 0b010011#6 base index hint 0#5 0b001111#6
  | .cop0 co copFun => copType 0b010000#6 co copFun
  | .cop1 co copFun => copType 0b010001#6 co copFun
  | .cop2 co copFun => copType 0b010010#6 co copFun
  | .movci rs cc tf rd => movciType rs cc tf rd

end Sys2Proof
end

