-- ==== Sys2Proof/Machine/State.lean ====
section
/-! DEFINITION. The state of the machine as plain data (10_state.md R30), the exceptions (60_exceptions.md R441), the
record of a Trap outcome (R460), the ways a step can stop, and the state after reset (10_state.md R57,
70_reset_and_hazards.md R491). -/

namespace Sys2Proof.Machine

/-- The pending branch decision for the instruction at `pc` (10_state.md R40). -/
inductive Delay where
  /-- Not in a delay slot. -/
  | none
  /-- In the delay slot of a taken branch to the target. -/
  | taken (target : Word)
  /-- In the delay slot of a branch not taken. -/
  | notTaken
  /-- In the slot of a branch likely not taken: not executed. -/
  | nullify
  deriving DecidableEq, Repr

/-- The size of a linked location (41_atomic_coproc_load_store.md R200, R201). -/
inductive LinkSize where
  | word | double
  deriving DecidableEq, Repr

/-- `LLaddr` and what is known of the read-modify-write sequence in progress (41_atomic_coproc_load_store.md R200,
R205). -/
structure Link where
  /-- The linked virtual address and size: the pair `LLaddr`. -/
  vaddr : Word
  size : LinkSize
  /-- The physical address of the linked location. -/
  paddr : Nat
  /-- A load, a store or a prefetch has completed since the linked load. -/
  disturbed : Bool
  /-- The lowest and the highest address of an instruction completed since, the linked load included. -/
  low : Word
  high : Word
  deriving DecidableEq, Repr

/-- What is remembered of a physical byte: the access type of the last load or store of it (20_memory.md R94) and
whether a store of the run has written it (R110). -/
structure Note where
  type : AccessType
  stored : Bool
  deriving DecidableEq, Repr

/-- The register in the MIPS I load delay slot, and whether LWL or LWR loaded it (70_reset_and_hazards.md R500). -/
structure LoadDelay where
  reg : Reg
  merge : Bool
  deriving DecidableEq, Repr

/-- The exceptions, with the values each records (60_exceptions.md R441, R461). -/
inductive Exception where
  | addressError (kind : AccessKind) (vaddr : Word)
  | integerOverflow
  | reservedInstruction
  | coprocessorUnusable (unit : Fin 4)
  | tlbRefill (kind : AccessKind) (vaddr : Word)
  | tlbInvalid (kind : AccessKind) (vaddr : Word)
  | tlbModified (vaddr : Word)
  | busError (kind : AccessKind)
  | systemCall
  | breakpoint
  | trap
  /-- Named by the source; no step raises it (R451). -/
  | interrupt
  /-- Named by the source; no instruction in scope raises it (R450). -/
  | floatingPoint
  deriving DecidableEq, Repr

/-- The record of a Trap outcome; its `state` is the rest of the State, which is unchanged (60_exceptions.md R460). -/
structure TrapRecord where
  exception : Exception
  victim : Word
  inDelaySlot : Bool
  restart : Word
  deriving DecidableEq, Repr

/-- One change that the platform makes to the state of an ended run before it resumes it (60_exceptions.md R460): any
part of the state of 10_state.md R30 that the resumption does not fix itself, a byte of memory, or what is remembered
of one. -/
inductive Alteration where
  /-- `x[r]`; a change of `x[0]` is discarded. -/
  | gpr (r : Reg) (v : Word)
  /-- `HI`. -/
  | hi (v : Word)
  /-- `LO`. -/
  | lo (v : Word)
  | hiGuard (n : Fin 3)
  | loGuard (n : Fin 3)
  | hiloFresh (b : Bool)
  /-- `LLaddr`, with what is known of its sequence. -/
  | linked (l : Option Link)
  /-- `CPR[z, i]`; for unit 1, `FGR[i]`. -/
  | cpr (z : Fin 4) (i : Reg) (v : Word)
  /-- `CCR[z, i]`. -/
  | ccr (z : Fin 4) (i : Reg) (v : Word)
  /-- `COC[z]`; for unit 1, `FCC[0]`. -/
  | coc (z : Fin 4) (b : Bool)
  /-- `FCC[7..1]`. -/
  | fccHigh (v : BitVec 7)
  | fcsr (v : BitVec 32)
  /-- The byte at a physical address, of any access type. -/
  | byte (a : Nat) (b : Byte)
  /-- What is remembered of the byte at a physical address; with `none` it is forgotten, as by the privileged sequence of
  20_memory.md R94. -/
  | remembered (a : Nat) (n : Option Note)
  deriving DecidableEq, Repr

/-- What the environment may do between two steps (10_state.md R45, 60_exceptions.md R460, R477; note 11). -/
inductive EnvEvent where
  /-- Nothing. -/
  | quiet
  /-- The environment clears `LLbit`. -/
  | clearLink
  /-- Another agent stores bytes of memory of coherent type, given by their physical addresses (note 42). -/
  | agentStore (bytes : List Host.Cell)
  /-- Both between the same two instructions. -/
  | clearAndStore (bytes : List Host.Cell)
  /-- The platform changes the state of an ended run and resumes it at `pc` (note 40). -/
  | resume (pc : Word) (changes : List Alteration)
  deriving DecidableEq, Repr

/-- The state of one processor and its memory. INVENTORY.md names the rule and the reset value of every field. -/
structure State where
  /-- `x[0..31]`; the entry of register 0 is always zero (10_state.md R31, R32). -/
  gpr : Vector Word 32
  /-- `HI`, `LO` (10_state.md R35). -/
  hi : Word
  lo : Word
  /-- 10_state.md R38. -/
  pc : Word
  /-- 10_state.md R40. -/
  delay : Delay
  /-- `LLbit` (10_state.md R45). -/
  llbit : Bool
  /-- `LLaddr` (41_atomic_coproc_load_store.md R200). -/
  link : Option Link
  /-- The instructions left in which `HI`, `LO` may not be written (44_muldiv.md R302). -/
  hiGuard : Nat
  loGuard : Nat
  /-- 44_muldiv.md R315. -/
  hiloFresh : Bool
  /-- The coprocessor units; `FGR[i]` is `CPR[1, i]`, `FCC[0]` is `COC[1]` (10_state.md R46, R47, R49). -/
  cop0 : CopUnit
  cop1 : CopUnit
  cop2 : CopUnit
  cop3 : CopUnit
  /-- `FCC[7..1]` (10_state.md R53, note 30). -/
  fccHigh : BitVec 7
  /-- `FCSR` (10_state.md R53, note 30). -/
  fcsr : BitVec 32
  /-- The bytes of physical memory that are not zero, addresses strictly rising (20_memory.md R70, note 9). -/
  mem : List Host.Cell
  /-- What is remembered of the physical bytes accessed (20_memory.md R94, R110), addresses strictly rising. -/
  history : List (Nat × Note)
  /-- 70_reset_and_hazards.md R500. -/
  loadDelay : Option LoadDelay
  /-- The Trap outcome, when the run has ended with one (60_exceptions.md R460). -/
  trap : Option TrapRecord
  /-- The launch parameters (00_scope.md R7). -/
  params : Params
  /-- The model's own: what the environment does, one event before each step (note 11). -/
  env : List EnvEvent
  /-- The model's own: the index of the next free value (note 12). -/
  ticks : Nat
  deriving DecidableEq, Repr

/-- The machine stops with a fault. -/
inductive Fault where
  /-- Raised by `step` alone, at a state whose run has ended with a Trap outcome that the platform does not resume
  (60_exceptions.md R460, 70_reset_and_hazards.md R511). Safe: the spec gives such a run no further step. -/
  | trapOutcome (r : TrapRecord)
  deriving DecidableEq, Repr

/-- The machine gives no meaning from here on (the spec's `refuse`). All are safe: the model stops where hardware
goes on in a way that the spec does not describe. -/
inductive Refusal where
  /-- Raised by an arm of `exec` whose instruction has no meaning yet. -/
  | notModelled (mnemonic : String)
  /-- A required-zero field is not zero (30_encoding.md R140); raised after decoding. -/
  | requiredZeroField
  /-- A branch or jump in a delay slot (45_jump_branch.md R334). -/
  | branchInDelaySlot
  /-- A link branch that tests GPR 31 (45_jump_branch.md R362). -/
  | linkSourceIs31
  /-- JALR with `rs` = `rd` (45_jump_branch.md R341). -/
  | jalrSameRegister
  /-- SYNC with a non-zero `stype` (46_misc.md R400). -/
  | syncStype
  /-- A linked load or conditional store to an uncached location (41_atomic_coproc_load_store.md R200, R205). -/
  | linkedAccessUncached
  /-- A conditional store without its linked load (41_atomic_coproc_load_store.md R203). -/
  | conditionalStoreWithoutLink
  /-- A load or store of a byte last accessed with another access type (20_memory.md R94). -/
  | mixedAccessTypes
  /-- A fetch of a byte that a store of the run has written (20_memory.md R110). -/
  | fetchOfStoredByte
  /-- A write of HI or LO within two instructions of the read of it (44_muldiv.md R302). -/
  | hiLoHazard
  /-- A use of a register in its MIPS I load delay slot (70_reset_and_hazards.md R500). -/
  | loadDelaySlot
  /-- An indexed address outside the region of its base (41_atomic_coproc_load_store.md R220). -/
  | regionBits
  /-- An operation of a usable coprocessor, which the sources do not define (47_coprocessor.md R422). -/
  | coprocessorOperation (unit : Fin 4)
  /-- One of the eight multiply-accumulate instructions of the FPU (47_coprocessor.md R425), or MOVCI when the launch
  does not have it (R426). -/
  | fpuInstruction
  deriving DecidableEq, Repr

/-- What the rule of one instruction answers (10_state.md R43). -/
inductive Effect where
  /-- Completed, with its writes made and the delay value it leaves. -/
  | done (s : State) (d : Delay)
  /-- No write of the instruction takes effect. -/
  | raise (e : Exception)
  | refuse (r : Refusal)

/-- What the step cycle must know of an instruction beside its writes. -/
structure Traits where
  /-- The level at which the instruction is first defined (30_encoding.md R141). -/
  level : Level := .I
  /-- It is one of the jumps and branches (45_jump_branch.md R334). -/
  branch : Bool := false
  /-- The unit it addresses (47_coprocessor.md R421). -/
  unit : Option (Fin 4) := none
  /-- It is a load, a store or a prefetch (41_atomic_coproc_load_store.md R205). -/
  memory : Bool := false
  /-- It is MFHI, or MFLO (44_muldiv.md R302). -/
  readsHi : Bool := false
  readsLo : Bool := false
  /-- The general registers it uses as sources; only MIPS I instructions need list them (70_reset_and_hazards.md
  R500). -/
  reads : List Reg := []
  /-- The register whose old content LWL or LWR merges with. -/
  merges : Option Reg := none
  /-- The general register it loads, and whether it is LWL or LWR. -/
  loads : Option Reg := none
  mergeLoad : Bool := false

/-- The state right after reset (10_state.md R57). The values the spec leaves unspecified are those of notes 1 to 8. -/
def State.reset : State where
  gpr := Vector.replicate 32 0#64
  hi := 0#64
  lo := 0#64
  pc := Config.resetPC
  delay := .none
  llbit := false
  link := none
  hiGuard := 0
  loGuard := 0
  hiloFresh := false
  cop0 := .reset
  cop1 := .reset
  cop2 := .reset
  cop3 := .reset
  fccHigh := 0#7
  fcsr := 0#32
  mem := []
  history := []
  loadDelay := none
  trap := none
  params := Config.resetParams
  env := []
  ticks := 0

end Sys2Proof.Machine
end

