-- ==== Sys2Proof/Machine/Ops.lean ====
section
/-! DEFINITION. The operations the meanings share: registers, the launch parameters in force, memory, address
translation and data accesses, free values, taking an exception and returning from one, and what the step cycle does
around the rule of an instruction (10_state.md R43). -/

namespace Sys2Proof.Machine

/-! ## General registers (10_state.md R31, R32) -/

/-- `x[r]`; `x[0]` reads as zero. -/
def State.x (s : State) (r : Reg) : Word :=
  if r = 0#5 then 0#64 else s.gpr[r.toNat]'(r.isLt)

/-- `x[r] <- v`; a write of `x[0]` is discarded (R32). -/
def State.setX (s : State) (r : Reg) (v : Word) : State :=
  { s with gpr := if r = 0#5 then s.gpr else s.gpr.set r.toNat v (r.isLt) }

/-! ## Coprocessor units (10_state.md R46) -/

/-- Unit z. -/
def State.cop (s : State) (z : Fin 4) : CopUnit :=
  match z with
  | 0 => s.cop0
  | 1 => s.cop1
  | 2 => s.cop2
  | 3 => s.cop3

/-- Unit z replaced. -/
def State.setCop (s : State) (z : Fin 4) (u : CopUnit) : State :=
  match z with
  | 0 => { s with cop0 := u }
  | 1 => { s with cop1 := u }
  | 2 => { s with cop2 := u }
  | 3 => { s with cop3 := u }

/-- `CPR[z, i]`. -/
def readCpr (u : CopUnit) (i : Reg) : Word := u.cpr[i.toNat]'(i.isLt)

/-- `CPR[z, i] <- v`. -/
def writeCpr (u : CopUnit) (i : Reg) (v : Word) : CopUnit := { u with cpr := u.cpr.set i.toNat v (i.isLt) }

/-- `CCR[z, i]`. -/
def readCcr (u : CopUnit) (i : Reg) : Word := u.ccr[i.toNat]'(i.isLt)

/-- `CCR[z, i] <- v`. -/
def writeCcr (u : CopUnit) (i : Reg) (v : Word) : CopUnit := { u with ccr := u.ccr.set i.toNat v (i.isLt) }

/-- `FCC[cc]`; `FCC[0]` is `COC[1]` (10_state.md R47, R53). -/
def State.fcc (s : State) (cc : BitVec 3) : Bool :=
  if cc = 0#3 then s.cop1.coc else s.fccHigh.getLsbD (cc.toNat - 1)

/-! ## The launch parameters in force -/

/-- `ReverseEndian = (SR_RE and User mode)` (20_memory.md R75). -/
def reverseEndian (p : Params) : Bool := p.statusRE && p.mode == .user

/-- `BigEndianCPU = BigEndianMem XOR ReverseEndian` (20_memory.md R76). -/
def bigEndianCPU (p : Params) : Bool := p.bigEndianMem ^^ reverseEndian p

/-- `SizeFGR() = 64` (10_state.md R50). -/
def wideFGR (p : Params) : Bool := p.statusFR

/-- `CU[z]` (47_coprocessor.md R421). -/
def unitUsable (p : Params) (z : Fin 4) : Bool := p.cu.getLsbD z.val

/-- `BusErrorAt(pAddr, kind)`; a store reports none (60_exceptions.md R448). -/
def busErrorAt (p : Params) (kind : AccessKind) (pa : Nat) : Bool :=
  p.busErrors.any fun r => decide (r.base ≤ pa) && decide (pa < r.base + r.size) &&
    match kind with
    | .fetch => r.fetch
    | .load => r.load
    | .store => false

/-! ## Free values (note 12) -/

/-- The k-th undefined value of this step. -/
def State.freeWord (s : State) (k : Nat) : Word := Config.freeWord s.ticks k

/-- The k-th open choice of this step. -/
def State.freeBit (s : State) (k : Nat) : Bool := Config.freeBit s.ticks k

/-! ## Lists sorted by address -/

/-- The entry at a key. -/
def Assoc.find {α : Type} : List (Nat × α) → Nat → Option α
  | [], _ => none
  | (a, v) :: xs, k => if a = k then some v else Assoc.find xs k

/-- Put an entry, replacing one that is there; keeps the keys rising. -/
def Assoc.put {α : Type} : List (Nat × α) → Nat → α → List (Nat × α)
  | [], k, v => [(k, v)]
  | (a, w) :: xs, k, v =>
    if k < a then (k, v) :: (a, w) :: xs else if k = a then (k, v) :: xs else (a, w) :: Assoc.put xs k v

/-- Remove the entry at a key. -/
def Assoc.remove {α : Type} : List (Nat × α) → Nat → List (Nat × α)
  | [], _ => []
  | (a, w) :: xs, k => if a = k then xs else (a, w) :: Assoc.remove xs k

/-- The keys rise strictly. -/
def Assoc.rising {α : Type} : List (Nat × α) → Bool
  | [] => true
  | [_] => true
  | (a, _) :: (b, v) :: xs => decide (a < b) && Assoc.rising ((b, v) :: xs)

/-! ## Memory: one byte per physical address (20_memory.md R70, R93) -/

/-- What a byte that is not listed reads as: DESIGN CHOICE, note 9. -/
def Memory.unlisted : Byte := 0#8

/-- Read one byte. -/
def Memory.read (m : List Host.Cell) (a : Nat) : Byte := (Assoc.find m a).getD Memory.unlisted

/-- Write one byte, keeping the canonical form. -/
def Memory.write (m : List Host.Cell) (a : Nat) (b : Byte) : List Host.Cell :=
  if b = Memory.unlisted then Assoc.remove m a else Assoc.put m a b

/-- Write bytes one after the other. -/
def Memory.writeAll : List Host.Cell → List Host.Cell → List Host.Cell
  | m, [] => m
  | m, (a, b) :: cs => Memory.writeAll (Memory.write m a b) cs

/-- The canonical form: addresses rise strictly and no listed byte is the unlisted one. -/
def Memory.wf (m : List Host.Cell) : Bool := Assoc.rising m && m.all fun c => c.2 != Memory.unlisted

/-! ## What is remembered of the bytes accessed (20_memory.md R94, R110) -/

/-- Some byte was last accessed with another access type (R94). -/
def History.mixed (h : List (Nat × Note)) (type : AccessType) (cells : List Nat) : Bool :=
  cells.any fun a => (Assoc.find h a).any fun n => n.type != type

/-- A store of the run has written the byte (R110). -/
def History.stored (h : List (Nat × Note)) (a : Nat) : Bool := (Assoc.find h a).any Note.stored

/-- Remember an access of bytes. -/
def History.record (h : List (Nat × Note)) (type : AccessType) (store : Bool) : List Nat → List (Nat × Note)
  | [] => h
  | a :: cells => History.record (Assoc.put h a ⟨type, store || History.stored h a⟩) type store cells

/-- What is remembered of a byte replaced, or forgotten. -/
def History.setNote (h : List (Nat × Note)) (a : Nat) (n : Option Note) : List (Nat × Note) :=
  match n with
  | none => Assoc.remove h a
  | some n => Assoc.put h a n

/-! ## Address translation (20_memory.md R86) -/

/-- The region answers for an access of this kind at this address. -/
def regionCovers (e : MapEntry) (kind : AccessKind) (v : Word) : Bool :=
  decide (e.base ≤ v.toNat) && decide (v.toNat < e.base + e.size) &&
    match kind with
    | .fetch => e.fetch
    | .load => e.load
    | .store => e.store

/-- The physical address of `v` in a region based at `base` and mapped to `pbase`: `PSIZE` bits (R72), with the low
three bits of `v` (R86). -/
def physicalAddress (p : Params) (base pbase : Nat) (v : Word) : Nat :=
  8 * ((pbase / 8 + v.toNat / 8 - base / 8) % 2 ^ (p.psize - 3)) + v.toNat % 8

/-- `AddressTranslation(vAddr, IorD, LorS)`: a physical address and an access type, or an exception (R86,
60_exceptions.md R444, R445). An address no region covers raises Address Error (note 8). -/
def translate (p : Params) (kind : AccessKind) (v : Word) : Except Exception (Nat × AccessType) :=
  match p.translation.find? fun e => regionCovers e kind v with
  | none => .error (.addressError kind v)
  | some e =>
    match e.answer with
    | .mapped pbase type => .ok (physicalAddress p e.base pbase v, type)
    | .readOnly pbase type =>
      if kind = .store then .error (.tlbModified v) else .ok (physicalAddress p e.base pbase v, type)
    | .refill => .error (.tlbRefill kind v)
    | .invalid => .error (.tlbInvalid kind v)
    | .addressError => .error (.addressError kind v)

/-! ## Memory of coherent type (20_memory.md R92, 60_exceptions.md R477; note 42) -/

/-- The physical base of an answer of the cached coherent type. -/
def coherentBase : MapAnswer → Option Nat
  | .mapped pbase .cachedCoherent => some pbase
  | .readOnly pbase .cachedCoherent => some pbase
  | _ => none

/-- The virtual address that `physicalAddress` sends to `pa`, in the doubleword of the region's base or after it. -/
def regionFirst (p : Params) (e : MapEntry) (pbase pa : Nat) : Nat :=
  8 * (e.base / 8 + (pa / 8 + 2 ^ (p.psize - 3) - pbase / 8 % 2 ^ (p.psize - 3)) % 2 ^ (p.psize - 3)) + pa % 8

/-- The first such address that is not below the region's base. -/
def regionPreimage (p : Params) (e : MapEntry) (pbase pa : Nat) : Nat :=
  if regionFirst p e pbase pa < e.base then regionFirst p e pbase pa + 8 * 2 ^ (p.psize - 3)
  else regionFirst p e pbase pa

/-- The region sends some virtual address to `pa`. -/
def regionReaches (p : Params) (e : MapEntry) (pbase pa : Nat) : Bool :=
  decide (regionPreimage p e pbase pa < e.base + e.size) && decide (regionPreimage p e pbase pa < 2 ^ 64)

/-! ## Data accesses (20_memory.md R77, R80 to R83; 40_load_store.md R161) -/

/-- Where the byte that loads and stores see at a physical address lies: under `ReverseEndian` it is the byte that
fetch sees at the same doubleword's offset `o xor 7` (R78, note 32). -/
def dataCell (p : Params) (pa : Nat) : Nat :=
  if reverseEndian p then 8 * (pa / 8) + (7 - pa % 8) else pa

/-- The cells of `n` bytes from `pa` on, in address order. -/
def dataCells (p : Params) (pa n : Nat) : List Nat := (List.range n).map fun j => dataCell p (pa + j)

/-- The byte is in memory of coherent type: some region maps an address of it, as loads and stores see memory, with that
type. -/
def coherentCell (p : Params) (a : Nat) : Bool :=
  p.translation.any fun e => (coherentBase e.answer).any fun pbase => regionReaches p e pbase (dataCell p a)

/-- The alignment check: `v` is a multiple of `n`, or Address Error (R83). -/
def aligned (kind : AccessKind) (v : Word) (n : Nat) (next : Effect) : Effect :=
  if v.toNat % n = 0 then next else .raise (.addressError kind v)

/-- Translate the address of a data access, or raise what the translation answers. -/
def State.translated (s : State) (kind : AccessKind) (v : Word) (next : Nat → AccessType → Effect) : Effect :=
  match translate s.params kind v with
  | .error e => .raise e
  | .ok (pa, type) => next pa type

/-- The state in which an access is performed: its cells are remembered with its type (R94, R110). -/
def State.remember (s : State) (kind : AccessKind) (type : AccessType) (cells : List Nat) : State :=
  { s with history := History.record s.history type (kind = .store) cells }

/-- Perform a translated access of some cells: the mixing rule (R94), a load's Bus Error (60_exceptions.md R448) at
the translated address, then the access, which is remembered. -/
def State.perform (s : State) (kind : AccessKind) (pa : Nat) (type : AccessType) (cells : List Nat)
    (next : State → Effect) : Effect :=
  if History.mixed s.history type cells then .refuse .mixedAccessTypes
  else if busErrorAt s.params kind pa then .raise (.busError kind)
  else next (s.remember kind type cells)

/-- The value of cells in the byte order of loads and stores (R80). -/
def State.readCells (s : State) (cells : List Nat) : Nat :=
  assemble (bigEndianCPU s.params) (cells.map (Memory.read s.mem))

/-- Store the low bytes of a value in cells, in the byte order of loads and stores (R81). -/
def State.writeCells (s : State) (cells : List Nat) (v : Nat) : State :=
  { s with mem := Memory.writeAll s.mem (cells.zip (disassemble (bigEndianCPU s.params) cells.length v)) }

/-- A load of `n` aligned bytes: `MemRead` (R80) with the checks of 40_load_store.md R161. -/
def State.load (s : State) (v : Word) (n : Nat) (next : Nat → State → Effect) : Effect :=
  aligned .load v n <| s.translated .load v fun pa type =>
    s.perform .load pa type (dataCells s.params pa n) fun s' =>
      next (s'.readCells (dataCells s.params pa n)) s'

/-- A store of `n` aligned bytes: `MemWrite` (R81) with the checks of 40_load_store.md R161. -/
def State.store (s : State) (v : Word) (n value : Nat) (next : State → Effect) : Effect :=
  aligned .store v n <| s.translated .store v fun pa type =>
    s.perform .store pa type (dataCells s.params pa n) fun s' =>
      next (s'.writeCells (dataCells s.params pa n) value)

/-! ## Exceptions (60_exceptions.md R440, R460) -/

/-- The delay slot of a branch, taken or not, that is executed (R460). -/
def Delay.inSlot : Delay → Bool
  | .taken _ => true
  | .notTaken => true
  | .none => false
  | .nullify => false

/-- TAKE AN EXCEPTION: the Trap outcome (R460). The record says which exception, with its values (R461), the victim,
whether it is in a delay slot, and where to restart: the branch, when it is (10_state.md R44). Nothing else of the
spec's state changes. -/
def State.takeException (s : State) (e : Exception) : State :=
  { s with
    trap := some {
      exception := e
      victim := s.pc
      inDelaySlot := s.delay.inSlot
      restart := if s.delay.inSlot then s.pc - 4#64 else s.pc }
    ticks := s.ticks + 1 }

/-- One change by the platform (R460). A physical address has `PSIZE` bits (20_memory.md R72). -/
def State.alter (s : State) (c : Alteration) : State :=
  match c with
  | .gpr r v => s.setX r v
  | .hi v => { s with hi := v }
  | .lo v => { s with lo := v }
  | .hiGuard n => { s with hiGuard := n.val }
  | .loGuard n => { s with loGuard := n.val }
  | .hiloFresh b => { s with hiloFresh := b }
  | .linked l => { s with link := l }
  | .cpr z i v => s.setCop z (writeCpr (s.cop z) i v)
  | .ccr z i v => s.setCop z (writeCcr (s.cop z) i v)
  | .coc z b => s.setCop z { s.cop z with coc := b }
  | .fccHigh v => { s with fccHigh := v }
  | .fcsr v => { s with fcsr := v }
  | .byte a b => { s with mem := Memory.write s.mem (a % 2 ^ s.params.psize) b }
  | .remembered a n => { s with history := History.setNote s.history (a % 2 ^ s.params.psize) n }

/-- Several changes, in order. -/
def State.alterAll (s : State) : List Alteration → State
  | [] => s
  | c :: cs => (s.alter c).alterAll cs

/-- RETURN FROM AN EXCEPTION: the platform, having changed the state as it likes, resumes at `pc` with `delay` None and
`LLbit` cleared (R460, R463; note 40). -/
def State.resume (s : State) (pc : Word) (changes : List Alteration) : State :=
  { State.alterAll { s with llbit := false } changes with pc := pc, delay := .none, trap := none, loadDelay := none }

/-! ## Around the rule of an instruction (10_state.md R43) -/

/-- The address of the next instruction (10_state.md R39, R41). -/
def State.nextPc (s : State) : Word :=
  match s.delay with
  | .taken target => target
  | _ => s.pc + 4#64

/-- An instruction at `pc` has completed within the sequence (41_atomic_coproc_load_store.md R205). -/
def Link.extend (l : Link) (pc : Word) (memory : Bool) : Link :=
  { l with
    disturbed := l.disturbed || memory
    low := if pc < l.low then pc else l.low
    high := if l.high < pc then pc else l.high }

/-- What the instruction after a load must not use, at `ArchLevel` I (70_reset_and_hazards.md R500). -/
def Traits.loadDelay (t : Traits) (level : Level) : Option LoadDelay :=
  if level = .I then (t.loads.filter (· ≠ 0#5)).map fun r => ⟨r, t.mergeLoad⟩ else none

/-- The instruction uses the register in the load delay slot: as a source, or to merge with it unless LWL or LWR
loaded it (70_reset_and_hazards.md R500). -/
def State.loadHazard (s : State) (t : Traits) : Bool :=
  match s.loadDelay with
  | none => false
  | some d => t.reads.contains d.reg || (t.merges == some d.reg && !d.merge)

/-- The completion of an instruction that leaves `s'` and the delay value `d`; `s` is the state it began in. -/
def State.retire (s : State) (t : Traits) (s' : State) (d : Delay) : State :=
  { s' with
    pc := s.nextPc
    delay := d
    hiGuard := if t.readsHi then 2 else s'.hiGuard - 1
    loGuard := if t.readsLo then 2 else s'.loGuard - 1
    loadDelay := t.loadDelay s.params.archLevel
    link := s'.link.map fun l => l.extend s.pc t.memory
    ticks := s.ticks + 1 }

/-- Run the rule of an instruction in the order of checks of 60_exceptions.md R455, steps 4 and 6 to 13. -/
def State.issue (s : State) (t : Traits) (rule : State → Effect) :
    Host.Outcome State Fault Refusal :=
  if s.params.archLevel.rank < t.level.rank then .next (s.takeException .reservedInstruction)
  else if t.branch = true ∧ s.delay ≠ .none then .refused .branchInDelaySlot
  else
    match t.unit.filter fun z => !unitUsable s.params z with
    | some z => .next (s.takeException (.coprocessorUnusable z))
    | none =>
      if s.loadHazard t then .refused .loadDelaySlot
      else
        match rule s with
        | .done s' d => .next (s.retire t s' d)
        | .raise e => .next (s.takeException e)
        | .refuse r => .refused r

end Sys2Proof.Machine
end

