-- ==== Sys2Proof/Machine/Operands.lean ====
section
/-! DEFINITION. Every operand form: immediates, effective addresses, branch and jump targets, shift amounts, and the
ways a result is delivered. -/

namespace Sys2Proof.Machine

/-! ## Addresses and targets -/

/-- Register + offset: `x[base] + sext_64(offset)`, modulo 2^64 (40_load_store.md R160). -/
def State.address (s : State) (base : Reg) (offset : BitVec 16) : Word := s.x base + sext64 offset

/-- Register + register: `x[base] + x[index]` (41_atomic_coproc_load_store.md R220). -/
def State.indexedAddress (s : State) (base index : Reg) : Word := s.x base + s.x index

/-- The region bits, 63..62 (41_atomic_coproc_load_store.md R220). -/
def regionBits (v : Word) : BitVec 2 := v.extractLsb' 62 2

/-- The target of a conditional branch at `pc` (45_jump_branch.md R332). -/
def branchTarget (pc : Word) (offset : BitVec 16) : Word := pc + 4#64 + sext64 (offset ++ 0#2)

/-- The target of J and JAL at `pc`: the region is that of the delay slot (45_jump_branch.md R336). -/
def jumpTarget (pc : Word) (index : BitVec 26) : Word :=
  ((pc + 4#64).extractLsb' 28 36 ++ index ++ 0#2).cast (by decide)

/-- The return link (45_jump_branch.md R335). -/
def returnLink (pc : Word) : Word := pc + 8#64

/-! ## Shift amounts (30_encoding.md R129, 43_shift.md R270) -/

/-- The low five bits of a register, for the word shifts. -/
def wordAmount (v : Word) : Nat := (v.setWidth 5).toNat

/-- The low six bits of a register, for the doubleword shifts. -/
def doubleAmount (v : Word) : Nat := (v.setWidth 6).toNat

/-! ## Delivering a result -/

/-- The instruction completes and is no branch. -/
def State.complete (s : State) : Effect := .done s .none

/-- `x[rd] <- v`. -/
def State.deliver (s : State) (rd : Reg) (v : Word) : Effect := (s.setX rd v).complete

/-- `x[rd] <- sext_64(v)`, if the operands are word values; otherwise the result is undefined: a free value (42_alu.md
R231, note 13). -/
def State.deliverWord (s : State) (operandsAreWords : Bool) (rd : Reg) (v : Word32) : Effect :=
  s.deliver rd (if operandsAreWords then sext64 v else s.freeWord 0)

/-- The same for ADD, ADDI and SUB, from the 64-bit sum or difference: Integer Overflow when it does not fit a word.
When an operand is no word value, whether it overflows is free too (note 13). -/
def State.deliverTrapping (s : State) (operandsAreWords : Bool) (rd : Reg) (temp : Word) : Effect :=
  if (if operandsAreWords then wordOverflow temp else s.freeBit 0) then .raise .integerOverflow
  else s.deliverWord operandsAreWords rd (low32 temp)

/-- The same for DADD, DADDI and DSUB, from the exact sum or difference (42_alu.md R249). -/
def State.deliverDouble (s : State) (rd : Reg) (n : Int) : Effect :=
  if doubleOverflow n then .raise .integerOverflow else s.deliver rd (BitVec.ofInt 64 n)

/-- Both registers hold word values. -/
def State.areWords (s : State) (rs rt : Reg) : Bool := !notWordValue (s.x rs) && !notWordValue (s.x rt)

end Sys2Proof.Machine
end

