-- ==== Sys2Proof/Machine/Alu.lean ====
section
/-! DEFINITION. The arithmetic, comparison and logic instructions (42_alu.md). -/

namespace Sys2Proof.Machine

/-! ## Immediate operand (42_alu.md section 2) -/

/-- ADDI (R232). -/
def execAddi (rs rt : Reg) (immediate : BitVec 16) (s : State) : Host.Outcome State Fault Refusal :=
  s.issue { reads := [rs] } fun s => s.deliverTrapping (!notWordValue (s.x rs)) rt (s.x rs + sext64 immediate)

/-- ADDIU (R233). -/
def execAddiu (rs rt : Reg) (immediate : BitVec 16) (s : State) : Host.Outcome State Fault Refusal :=
  s.issue { reads := [rs] } fun s => s.deliverWord (!notWordValue (s.x rs)) rt (low32 (s.x rs + sext64 immediate))

/-- SLTI (R234). -/
def execSlti (rs rt : Reg) (immediate : BitVec 16) (s : State) : Host.Outcome State Fault Refusal :=
  s.issue { reads := [rs] } fun s => s.deliver rt (truthValue (lessSigned (s.x rs) (sext64 immediate)))

/-- SLTIU (R235). -/
def execSltiu (rs rt : Reg) (immediate : BitVec 16) (s : State) : Host.Outcome State Fault Refusal :=
  s.issue { reads := [rs] } fun s => s.deliver rt (truthValue (lessUnsigned (s.x rs) (sext64 immediate)))

/-- ANDI (R236). -/
def execAndi (rs rt : Reg) (immediate : BitVec 16) (s : State) : Host.Outcome State Fault Refusal :=
  s.issue { reads := [rs] } fun s => s.deliver rt (zext64 immediate &&& s.x rs)

/-- ORI (R237). -/
def execOri (rs rt : Reg) (immediate : BitVec 16) (s : State) : Host.Outcome State Fault Refusal :=
  s.issue { reads := [rs] } fun s => s.deliver rt (zext64 immediate ||| s.x rs)

/-- XORI (R238). -/
def execXori (rs rt : Reg) (immediate : BitVec 16) (s : State) : Host.Outcome State Fault Refusal :=
  s.issue { reads := [rs] } fun s => s.deliver rt (zext64 immediate ^^^ s.x rs)

/-- LUI (R239). -/
def execLui (rt : Reg) (immediate : BitVec 16) (s : State) : Host.Outcome State Fault Refusal :=
  s.issue {} fun s => s.deliver rt (sext64 (immediate ++ 0#16))

/-- DADDI (R240). -/
def execDaddi (rs rt : Reg) (immediate : BitVec 16) (s : State) : Host.Outcome State Fault Refusal :=
  s.issue { level := .III } fun s => s.deliverDouble rt ((s.x rs).toInt + (sext64 immediate).toInt)

/-- DADDIU (R241). -/
def execDaddiu (rs rt : Reg) (immediate : BitVec 16) (s : State) : Host.Outcome State Fault Refusal :=
  s.issue { level := .III } fun s => s.deliver rt (s.x rs + sext64 immediate)

/-! ## Three operands (42_alu.md section 3) -/

/-- ADD (R245). -/
def execAdd (rs rt rd : Reg) (s : State) : Host.Outcome State Fault Refusal :=
  s.issue { reads := [rs, rt] } fun s => s.deliverTrapping (s.areWords rs rt) rd (s.x rs + s.x rt)

/-- ADDU (R246). -/
def execAddu (rs rt rd : Reg) (s : State) : Host.Outcome State Fault Refusal :=
  s.issue { reads := [rs, rt] } fun s => s.deliverWord (s.areWords rs rt) rd (low32 (s.x rs + s.x rt))

/-- SUB (R247). -/
def execSub (rs rt rd : Reg) (s : State) : Host.Outcome State Fault Refusal :=
  s.issue { reads := [rs, rt] } fun s => s.deliverTrapping (s.areWords rs rt) rd (s.x rs - s.x rt)

/-- SUBU (R248). -/
def execSubu (rs rt rd : Reg) (s : State) : Host.Outcome State Fault Refusal :=
  s.issue { reads := [rs, rt] } fun s => s.deliverWord (s.areWords rs rt) rd (low32 (s.x rs - s.x rt))

/-- DADD (R249). -/
def execDadd (rs rt rd : Reg) (s : State) : Host.Outcome State Fault Refusal :=
  s.issue { level := .III } fun s => s.deliverDouble rd ((s.x rs).toInt + (s.x rt).toInt)

/-- DADDU (R250). -/
def execDaddu (rs rt rd : Reg) (s : State) : Host.Outcome State Fault Refusal :=
  s.issue { level := .III } fun s => s.deliver rd (s.x rs + s.x rt)

/-- DSUB (R251). -/
def execDsub (rs rt rd : Reg) (s : State) : Host.Outcome State Fault Refusal :=
  s.issue { level := .III } fun s => s.deliverDouble rd ((s.x rs).toInt - (s.x rt).toInt)

/-- DSUBU (R252). -/
def execDsubu (rs rt rd : Reg) (s : State) : Host.Outcome State Fault Refusal :=
  s.issue { level := .III } fun s => s.deliver rd (s.x rs - s.x rt)

/-- SLT (R253). -/
def execSlt (rs rt rd : Reg) (s : State) : Host.Outcome State Fault Refusal :=
  s.issue { reads := [rs, rt] } fun s => s.deliver rd (truthValue (lessSigned (s.x rs) (s.x rt)))

/-- SLTU (R254). -/
def execSltu (rs rt rd : Reg) (s : State) : Host.Outcome State Fault Refusal :=
  s.issue { reads := [rs, rt] } fun s => s.deliver rd (truthValue (lessUnsigned (s.x rs) (s.x rt)))

/-- AND (R255). -/
def execAnd (rs rt rd : Reg) (s : State) : Host.Outcome State Fault Refusal :=
  s.issue { reads := [rs, rt] } fun s => s.deliver rd (s.x rs &&& s.x rt)

/-- OR (R256). -/
def execOr (rs rt rd : Reg) (s : State) : Host.Outcome State Fault Refusal :=
  s.issue { reads := [rs, rt] } fun s => s.deliver rd (s.x rs ||| s.x rt)

/-- XOR (R257). -/
def execXor (rs rt rd : Reg) (s : State) : Host.Outcome State Fault Refusal :=
  s.issue { reads := [rs, rt] } fun s => s.deliver rd (s.x rs ^^^ s.x rt)

/-- NOR (R258). -/
def execNor (rs rt rd : Reg) (s : State) : Host.Outcome State Fault Refusal :=
  s.issue { reads := [rs, rt] } fun s => s.deliver rd (~~~(s.x rs ||| s.x rt))

end Sys2Proof.Machine
end

