-- ==== Sys2Proof/Machine/Atomic.lean ====
section
/-! DEFINITION. The linked loads and the conditional stores (41_atomic_coproc_load_store.md section 1). -/

namespace Sys2Proof.Machine

/-! ## The sequence (41_atomic_coproc_load_store.md R205) -/

/-- The bytes of a linked location. -/
def LinkSize.bytes : LinkSize → Nat
  | .word => 4
  | .double => 8

/-- The instructions of the sequence, the conditional store at `pc` included, lie in 2048 contiguous bytes. -/
def Link.inWindow (l : Link) (pc : Word) : Bool :=
  decide ((if l.high < pc then pc else l.high).toNat + 4 ≤ (if pc < l.low then pc else l.low).toNat + 2048)

/-- A failure may be drawn: a load, store or prefetch came between, or the window was left. -/
def Link.mayFail (l : Link) (pc : Word) : Bool := l.disturbed || !l.inWindow pc

/-- `ok`: LLbit, or 0 if a failure is drawn (R202, R205, note 18). -/
def State.conditionalSucceeds (s : State) (l : Link) : Bool :=
  s.llbit && !(l.mayFail s.pc && s.freeBit 0)

/-- The linked load at `v` (R200, R201): `result` is the value for `x[rt]`. -/
def State.linkedLoad (s : State) (v : Word) (size : LinkSize) (rt : Reg) (result : Nat → Word) : Effect :=
  aligned .load v size.bytes <| s.translated .load v fun pa type =>
    if type = .uncached then .refuse .linkedAccessUncached
    else
      s.perform .load pa type (dataCells s.params pa size.bytes) fun s' =>
        let link : Link := ⟨v, size, pa, false, s.pc, s.pc⟩
        State.complete
          { s'.setX rt (result (s'.readCells (dataCells s.params pa size.bytes))) with llbit := true, link := some link }

/-- The end of a conditional store: the result, 1 or 0, in `x[rt]`, and the sequence is over (R202). -/
def State.endSequence (s : State) (rt : Reg) (ok : Bool) : Effect :=
  State.complete { s.setX rt (if ok then 1#64 else 0#64) with llbit := false, link := none }

/-- The conditional store at `v` (R202, R204); R203 (a) to (c) are refused. -/
def State.conditionalStore (s : State) (v : Word) (size : LinkSize) (rt : Reg) : Effect :=
  aligned .store v size.bytes <| s.translated .store v fun pa type =>
    if type = .uncached then .refuse .linkedAccessUncached
    else
      match s.link with
      | none => .refuse .conditionalStoreWithoutLink
      | some l =>
        if l.vaddr ≠ v ∨ l.size ≠ size then .refuse .conditionalStoreWithoutLink
        else if s.conditionalSucceeds l then
          s.perform .store pa type (dataCells s.params pa size.bytes) fun s' =>
            (s'.writeCells (dataCells s.params pa size.bytes) (s.x rt).toNat).endSequence rt true
        else s.endSequence rt false

/-! ## The instructions -/

/-- LL (R200). -/
def execLl (base rt : Reg) (offset : BitVec 16) (s : State) : Host.Outcome State Fault Refusal :=
  s.issue { level := .II } fun s =>
    s.linkedLoad (s.address base offset) .word rt fun v => sext64 (BitVec.ofNat 32 v)

/-- LLD (R201). -/
def execLld (base rt : Reg) (offset : BitVec 16) (s : State) : Host.Outcome State Fault Refusal :=
  s.issue { level := .III } fun s =>
    s.linkedLoad (s.address base offset) .double rt fun v => BitVec.ofNat 64 v

/-- SC (R202). -/
def execSc (base rt : Reg) (offset : BitVec 16) (s : State) : Host.Outcome State Fault Refusal :=
  s.issue { level := .II, memory := true } fun s => s.conditionalStore (s.address base offset) .word rt

/-- SCD (R204). -/
def execScd (base rt : Reg) (offset : BitVec 16) (s : State) : Host.Outcome State Fault Refusal :=
  s.issue { level := .III, memory := true } fun s => s.conditionalStore (s.address base offset) .double rt

end Sys2Proof.Machine
end

