-- ==== Sys2Proof/Machine/Branch.lean ====
section
/-! DEFINITION. The jumps and branches (45_jump_branch.md). -/

namespace Sys2Proof.Machine

/-! ## The delay value (45_jump_branch.md R333) -/

/-- A conditional branch: taken, or not, and then the slot is executed. -/
def branchDelay (c : Bool) (target : Word) : Delay := if c then .taken target else .notTaken

/-- A branch likely: taken, or not, and then the slot is nullified. -/
def likelyDelay (c : Bool) (target : Word) : Delay := if c then .taken target else .nullify

/-- A link branch records the return link whether or not it is taken; it must not test GPR 31 (R335, R362). -/
def State.linkBranch (s : State) (rs : Reg) (d : Delay) : Effect :=
  if rs = 31#5 then .refuse .linkSourceIs31 else .done (s.setX 31#5 (returnLink s.pc)) d

/-! ## Jumps (45_jump_branch.md section 2) -/

/-- J (R336). -/
def execJ (index : BitVec 26) (s : State) : Host.Outcome State Fault Refusal :=
  s.issue { branch := true } fun s => .done s (.taken (jumpTarget s.pc index))

/-- JAL (R337). -/
def execJal (index : BitVec 26) (s : State) : Host.Outcome State Fault Refusal :=
  s.issue { branch := true } fun s => .done (s.setX 31#5 (returnLink s.pc)) (.taken (jumpTarget s.pc index))

/-- JR (R340). -/
def execJr (rs : Reg) (s : State) : Host.Outcome State Fault Refusal :=
  s.issue { branch := true, reads := [rs] } fun s => .done s (.taken (s.x rs))

/-- JALR (R341). -/
def execJalr (rs rd : Reg) (s : State) : Host.Outcome State Fault Refusal :=
  s.issue { branch := true, reads := [rs] } fun s =>
    if rs = rd then .refuse .jalrSameRegister else .done (s.setX rd (returnLink s.pc)) (.taken (s.x rs))

/-! ## Branches that compare two registers, or one with zero (45_jump_branch.md sections 3 and 4) -/

/-- BEQ (R345). -/
def execBeq (rs rt : Reg) (offset : BitVec 16) (s : State) : Host.Outcome State Fault Refusal :=
  s.issue { branch := true, reads := [rs, rt] } fun s => .done s (branchDelay (s.x rs == s.x rt) (branchTarget s.pc offset))

/-- BNE (R346). -/
def execBne (rs rt : Reg) (offset : BitVec 16) (s : State) : Host.Outcome State Fault Refusal :=
  s.issue { branch := true, reads := [rs, rt] } fun s => .done s (branchDelay (s.x rs != s.x rt) (branchTarget s.pc offset))

/-- BLEZ (R347). -/
def execBlez (rs : Reg) (offset : BitVec 16) (s : State) : Host.Outcome State Fault Refusal :=
  s.issue { branch := true, reads := [rs] } fun s => .done s (branchDelay (notPositive (s.x rs)) (branchTarget s.pc offset))

/-- BGTZ (R348). -/
def execBgtz (rs : Reg) (offset : BitVec 16) (s : State) : Host.Outcome State Fault Refusal :=
  s.issue { branch := true, reads := [rs] } fun s => .done s (branchDelay (!notPositive (s.x rs)) (branchTarget s.pc offset))

/-- BEQL (R349). -/
def execBeql (rs rt : Reg) (offset : BitVec 16) (s : State) : Host.Outcome State Fault Refusal :=
  s.issue { branch := true, level := .II } fun s => .done s (likelyDelay (s.x rs == s.x rt) (branchTarget s.pc offset))

/-- BNEL (R350). -/
def execBnel (rs rt : Reg) (offset : BitVec 16) (s : State) : Host.Outcome State Fault Refusal :=
  s.issue { branch := true, level := .II } fun s => .done s (likelyDelay (s.x rs != s.x rt) (branchTarget s.pc offset))

/-- BLEZL (R351). -/
def execBlezl (rs : Reg) (offset : BitVec 16) (s : State) : Host.Outcome State Fault Refusal :=
  s.issue { branch := true, level := .II } fun s => .done s (likelyDelay (notPositive (s.x rs)) (branchTarget s.pc offset))

/-- BGTZL (R352). -/
def execBgtzl (rs : Reg) (offset : BitVec 16) (s : State) : Host.Outcome State Fault Refusal :=
  s.issue { branch := true, level := .II } fun s => .done s (likelyDelay (!notPositive (s.x rs)) (branchTarget s.pc offset))

/-- BLTZ (R354). -/
def execBltz (rs : Reg) (offset : BitVec 16) (s : State) : Host.Outcome State Fault Refusal :=
  s.issue { branch := true, reads := [rs] } fun s => .done s (branchDelay (negative (s.x rs)) (branchTarget s.pc offset))

/-- BGEZ (R355). -/
def execBgez (rs : Reg) (offset : BitVec 16) (s : State) : Host.Outcome State Fault Refusal :=
  s.issue { branch := true, reads := [rs] } fun s => .done s (branchDelay (!negative (s.x rs)) (branchTarget s.pc offset))

/-- BLTZL (R356). -/
def execBltzl (rs : Reg) (offset : BitVec 16) (s : State) : Host.Outcome State Fault Refusal :=
  s.issue { branch := true, level := .II } fun s => .done s (likelyDelay (negative (s.x rs)) (branchTarget s.pc offset))

/-- BGEZL (R357). -/
def execBgezl (rs : Reg) (offset : BitVec 16) (s : State) : Host.Outcome State Fault Refusal :=
  s.issue { branch := true, level := .II } fun s => .done s (likelyDelay (!negative (s.x rs)) (branchTarget s.pc offset))

/-- BLTZAL (R358). -/
def execBltzal (rs : Reg) (offset : BitVec 16) (s : State) : Host.Outcome State Fault Refusal :=
  s.issue { branch := true, reads := [rs] } fun s => s.linkBranch rs (branchDelay (negative (s.x rs)) (branchTarget s.pc offset))

/-- BGEZAL (R359). -/
def execBgezal (rs : Reg) (offset : BitVec 16) (s : State) : Host.Outcome State Fault Refusal :=
  s.issue { branch := true, reads := [rs] } fun s => s.linkBranch rs (branchDelay (!negative (s.x rs)) (branchTarget s.pc offset))

/-- BLTZALL (R360). -/
def execBltzall (rs : Reg) (offset : BitVec 16) (s : State) : Host.Outcome State Fault Refusal :=
  s.issue { branch := true, level := .II } fun s => s.linkBranch rs (likelyDelay (negative (s.x rs)) (branchTarget s.pc offset))

/-- BGEZALL (R361). -/
def execBgezall (rs : Reg) (offset : BitVec 16) (s : State) : Host.Outcome State Fault Refusal :=
  s.issue { branch := true, level := .II } fun s => s.linkBranch rs (likelyDelay (!negative (s.x rs)) (branchTarget s.pc offset))

end Sys2Proof.Machine
end

