-- ==== Sys2Proof/Machine/CopMemory.lean ====
section
/-! DEFINITION. The coprocessor loads and stores (41_atomic_coproc_load_store.md sections 2 and 3). -/

namespace Sys2Proof.Machine

/-! ## What unit 1 does with the data (41_atomic_coproc_load_store.md R212; R49 to R52 of 10_state.md)

`FGR[i]` is `CPR[1, i]`. When the FGRs are 32 bits wide they are the low words of the registers, and the high words are
left alone (note 29). -/

/-- The low word of an FGR replaced. -/
def setLowWord (old : Word) (w : Word32) : Word := old.extractLsb' 32 32 ++ w

/-- `FGR[i] <- v`. -/
def State.setFgr (s : State) (i : Reg) (v : Word) : State := { s with cop1 := writeCpr s.cop1 i v }

/-- `FGR[i]`. -/
def State.fgr (s : State) (i : Reg) : Word := readCpr s.cop1 i

/-- The registers of a 32-bit pair: the even one, and the odd one above it. -/
def evenOf (i : Reg) : Reg := i &&& 0b11110#5
def oddOf (i : Reg) : Reg := i ||| 1#5

/-- `FGR[i+1] <- hi ; FGR[i] <- lo` on the pair that holds `i`, when the FGRs are 32 bits wide. -/
def State.setPair (s : State) (i : Reg) (hi lo : Word32) : State :=
  (s.setFgr (oddOf i) (setLowWord (s.fgr (oddOf i)) hi)).setFgr (evenOf i) (setLowWord (s.fgr (evenOf i)) lo)

/-- `COP_LW(1, ft, w)`; the upper half of a 64-bit FGR is then undefined: a free value (note 16). -/
def State.copLoadWord1 (s : State) (ft : Reg) (w : Word32) : State :=
  s.setFgr ft (setLowWord (if wideFGR s.params then s.freeWord 0 else s.fgr ft) w)

/-- `COP_LD(1, ft, d)`; for an odd `ft` of 32-bit FGRs the result is undefined: the pair holds free values (note
20). -/
def State.copLoadDouble1 (s : State) (ft : Reg) (d : Word) : State :=
  if wideFGR s.params then s.setFgr ft d
  else if ft.getLsbD 0 then s.setPair ft (low32 (s.freeWord 1)) (low32 (s.freeWord 0))
  else s.setPair ft (d.extractLsb' 32 32) (low32 d)

/-- `COP_SW(1, ft)`. -/
def State.copStoreWord1 (s : State) (ft : Reg) : Word32 := low32 (s.fgr ft)

/-- `COP_SD(1, ft)`; for an odd `ft` of 32-bit FGRs the doubleword supplied is undefined: a free value (note 20). -/
def State.copStoreDouble1 (s : State) (ft : Reg) : Word :=
  if wideFGR s.params then s.fgr ft
  else if ft.getLsbD 0 then s.freeWord 0
  else low32 (s.fgr (oddOf ft)) ++ low32 (s.fgr (evenOf ft))

/-! ## Unit 2: the four functions are parameters (10_state.md R48, note 28) -/

/-- `COP_LW(2, rt, w)`. -/
def State.copLoadWord2 (s : State) (rt : Reg) (w : Word32) : State :=
  { s with cop2 := Config.cop2LoadWord rt w s.cop2 }

/-- `COP_LD(2, rt, d)`. -/
def State.copLoadDouble2 (s : State) (rt : Reg) (d : Word) : State :=
  { s with cop2 := Config.cop2LoadDouble rt d s.cop2 }

/-- The unit after it has supplied data. -/
def State.setCop2 (s : State) (u : CopUnit) : State := { s with cop2 := u }

/-- The region restriction of the indexed forms: the address is in the region of its base (R220). -/
def State.inRegion (s : State) (base : Reg) (v : Word) (next : Effect) : Effect :=
  if regionBits v = regionBits (s.x base) then next else .refuse .regionBits

/-! ## Unit 1 and unit 2, register + offset (R213 to R216) -/

/-- LWC1 (R213). -/
def execLwc1 (base ft : Reg) (offset : BitVec 16) (s : State) : Host.Outcome State Fault Refusal :=
  s.issue { unit := some 1, memory := true, reads := [base] } fun s =>
    s.load (s.address base offset) 4 fun v s' => (s'.copLoadWord1 ft (BitVec.ofNat 32 v)).complete

/-- LWC2 (R213). -/
def execLwc2 (base rt : Reg) (offset : BitVec 16) (s : State) : Host.Outcome State Fault Refusal :=
  s.issue { unit := some 2, memory := true, reads := [base] } fun s =>
    s.load (s.address base offset) 4 fun v s' => (s'.copLoadWord2 rt (BitVec.ofNat 32 v)).complete

/-- LDC1 (R214). -/
def execLdc1 (base ft : Reg) (offset : BitVec 16) (s : State) : Host.Outcome State Fault Refusal :=
  s.issue { level := .II, unit := some 1, memory := true } fun s =>
    s.load (s.address base offset) 8 fun v s' => (s'.copLoadDouble1 ft (BitVec.ofNat 64 v)).complete

/-- LDC2 (R214). -/
def execLdc2 (base rt : Reg) (offset : BitVec 16) (s : State) : Host.Outcome State Fault Refusal :=
  s.issue { level := .II, unit := some 2, memory := true } fun s =>
    s.load (s.address base offset) 8 fun v s' => (s'.copLoadDouble2 rt (BitVec.ofNat 64 v)).complete

/-- SWC1 (R215). -/
def execSwc1 (base ft : Reg) (offset : BitVec 16) (s : State) : Host.Outcome State Fault Refusal :=
  s.issue { unit := some 1, memory := true, reads := [base] } fun s =>
    s.store (s.address base offset) 4 (s.copStoreWord1 ft).toNat State.complete

/-- SWC2 (R215). -/
def execSwc2 (base rt : Reg) (offset : BitVec 16) (s : State) : Host.Outcome State Fault Refusal :=
  s.issue { unit := some 2, memory := true, reads := [base] } fun s =>
    s.store (s.address base offset) 4 (Config.cop2StoreWord rt s.cop2).2.toNat fun s' =>
      (s'.setCop2 (Config.cop2StoreWord rt s.cop2).1).complete

/-- SDC1 (R216). -/
def execSdc1 (base ft : Reg) (offset : BitVec 16) (s : State) : Host.Outcome State Fault Refusal :=
  s.issue { level := .II, unit := some 1, memory := true } fun s =>
    s.store (s.address base offset) 8 (s.copStoreDouble1 ft).toNat State.complete

/-- SDC2 (R216). -/
def execSdc2 (base rt : Reg) (offset : BitVec 16) (s : State) : Host.Outcome State Fault Refusal :=
  s.issue { level := .II, unit := some 2, memory := true } fun s =>
    s.store (s.address base offset) 8 (Config.cop2StoreDouble rt s.cop2).2.toNat fun s' =>
      (s'.setCop2 (Config.cop2StoreDouble rt s.cop2).1).complete

/-! ## Unit 1, register + register (R221 to R224) -/

/-- LWXC1 (R221). -/
def execLwxc1 (base index fd : Reg) (s : State) : Host.Outcome State Fault Refusal :=
  s.issue { level := .IV, unit := some 1, memory := true } fun s =>
    s.inRegion base (s.indexedAddress base index) <|
      s.load (s.indexedAddress base index) 4 fun v s' => (s'.copLoadWord1 fd (BitVec.ofNat 32 v)).complete

/-- LDXC1 (R222). -/
def execLdxc1 (base index fd : Reg) (s : State) : Host.Outcome State Fault Refusal :=
  s.issue { level := .IV, unit := some 1, memory := true } fun s =>
    s.inRegion base (s.indexedAddress base index) <|
      s.load (s.indexedAddress base index) 8 fun v s' => (s'.copLoadDouble1 fd (BitVec.ofNat 64 v)).complete

/-- SWXC1 (R223). -/
def execSwxc1 (base index fs : Reg) (s : State) : Host.Outcome State Fault Refusal :=
  s.issue { level := .IV, unit := some 1, memory := true } fun s =>
    s.inRegion base (s.indexedAddress base index) <|
      s.store (s.indexedAddress base index) 4 (s.copStoreWord1 fs).toNat State.complete

/-- SDXC1 (R224). -/
def execSdxc1 (base index fs : Reg) (s : State) : Host.Outcome State Fault Refusal :=
  s.issue { level := .IV, unit := some 1, memory := true } fun s =>
    s.inRegion base (s.indexedAddress base index) <|
      s.store (s.indexedAddress base index) 8 (s.copStoreDouble1 fs).toNat State.complete

end Sys2Proof.Machine
end

