-- ==== Sys2Proof/Machine/Coprocessor.lean ====
section
/-! DEFINITION. The coprocessor operations and MOVCI (47_coprocessor.md). -/

namespace Sys2Proof.Machine

/-! ## COPz: the usable check, and then an operation the sources do not define (47_coprocessor.md R422, note 27) -/

/-- COP0 (R422). -/
def execCop0 (_co : BitVec 1) (_copFun : BitVec 25) (s : State) : Host.Outcome State Fault Refusal :=
  s.issue { unit := some 0 } fun _ => .refuse (.coprocessorOperation 0)

/-- COP1 (R422). -/
def execCop1 (_co : BitVec 1) (_copFun : BitVec 25) (s : State) : Host.Outcome State Fault Refusal :=
  s.issue { unit := some 1 } fun _ => .refuse (.coprocessorOperation 1)

/-- COP2 (R422). -/
def execCop2 (_co : BitVec 1) (_copFun : BitVec 25) (s : State) : Host.Outcome State Fault Refusal :=
  s.issue { unit := some 2 } fun _ => .refuse (.coprocessorOperation 2)

/-! ## MOVCI (47_coprocessor.md R426) -/

/-- MOVCI, that is MOVF and MOVT. The rule does not execute it, because it is an FPU instruction that the sources do
not describe: refused. A launch that has it executes what the rule says the operation would be,
`if FCC[cc] = tf then x[rd] <- x[rs]` (note 26). -/
def execMovci (rs : Reg) (cc : BitVec 3) (tf : BitVec 1) (rd : Reg) (s : State) : Host.Outcome State Fault Refusal :=
  s.issue { level := .IV, unit := some 1 } fun s =>
    if !s.params.fpuMoves then .refuse .fpuInstruction
    else if s.fcc cc = (tf == 1#1) then s.deliver rd (s.x rs) else s.complete

end Sys2Proof.Machine
end

