-- ==== Sys2Proof/Machine/LoadStore.lean ====
section
/-! DEFINITION. The normal loads and stores (40_load_store.md section 1). -/

namespace Sys2Proof.Machine

/-! The rules are 40_load_store.md R165 to R175; a load into `x[0]` makes its access and discards the data (R163). -/

/-- LB (R165). -/
def execLb (base rt : Reg) (offset : BitVec 16) (s : State) : Host.Outcome State Fault Refusal :=
  s.issue { memory := true, reads := [base], loads := some rt } fun s =>
    s.load (s.address base offset) 1 fun v s' => s'.deliver rt (sext64 (BitVec.ofNat 8 v))

/-- LBU (R166). -/
def execLbu (base rt : Reg) (offset : BitVec 16) (s : State) : Host.Outcome State Fault Refusal :=
  s.issue { memory := true, reads := [base], loads := some rt } fun s =>
    s.load (s.address base offset) 1 fun v s' => s'.deliver rt (zext64 (BitVec.ofNat 8 v))

/-- LH (R167). -/
def execLh (base rt : Reg) (offset : BitVec 16) (s : State) : Host.Outcome State Fault Refusal :=
  s.issue { memory := true, reads := [base], loads := some rt } fun s =>
    s.load (s.address base offset) 2 fun v s' => s'.deliver rt (sext64 (BitVec.ofNat 16 v))

/-- LHU (R168). -/
def execLhu (base rt : Reg) (offset : BitVec 16) (s : State) : Host.Outcome State Fault Refusal :=
  s.issue { memory := true, reads := [base], loads := some rt } fun s =>
    s.load (s.address base offset) 2 fun v s' => s'.deliver rt (zext64 (BitVec.ofNat 16 v))

/-- LW (R169). -/
def execLw (base rt : Reg) (offset : BitVec 16) (s : State) : Host.Outcome State Fault Refusal :=
  s.issue { memory := true, reads := [base], loads := some rt } fun s =>
    s.load (s.address base offset) 4 fun v s' => s'.deliver rt (sext64 (BitVec.ofNat 32 v))

/-- LWU (R170). -/
def execLwu (base rt : Reg) (offset : BitVec 16) (s : State) : Host.Outcome State Fault Refusal :=
  s.issue { level := .III, memory := true } fun s =>
    s.load (s.address base offset) 4 fun v s' => s'.deliver rt (zext64 (BitVec.ofNat 32 v))

/-- LD (R171). -/
def execLd (base rt : Reg) (offset : BitVec 16) (s : State) : Host.Outcome State Fault Refusal :=
  s.issue { level := .III, memory := true } fun s =>
    s.load (s.address base offset) 8 fun v s' => s'.deliver rt (BitVec.ofNat 64 v)

/-- SB (R172). -/
def execSb (base rt : Reg) (offset : BitVec 16) (s : State) : Host.Outcome State Fault Refusal :=
  s.issue { memory := true, reads := [base, rt] } fun s =>
    s.store (s.address base offset) 1 (s.x rt).toNat State.complete

/-- SH (R173). -/
def execSh (base rt : Reg) (offset : BitVec 16) (s : State) : Host.Outcome State Fault Refusal :=
  s.issue { memory := true, reads := [base, rt] } fun s =>
    s.store (s.address base offset) 2 (s.x rt).toNat State.complete

/-- SW (R174). -/
def execSw (base rt : Reg) (offset : BitVec 16) (s : State) : Host.Outcome State Fault Refusal :=
  s.issue { memory := true, reads := [base, rt] } fun s =>
    s.store (s.address base offset) 4 (s.x rt).toNat State.complete

/-- SD (R175). -/
def execSd (base rt : Reg) (offset : BitVec 16) (s : State) : Host.Outcome State Fault Refusal :=
  s.issue { level := .III, memory := true } fun s =>
    s.store (s.address base offset) 8 (s.x rt).toNat State.complete

end Sys2Proof.Machine
end

