-- ==== Sys2Proof/Machine/Misc.lean ====
section
/-! DEFINITION. Exception instructions, SYNC, conditional moves and prefetch (46_misc.md). -/

namespace Sys2Proof.Machine

/-! ## Exception instructions (46_misc.md section 1)

The `code` fields are not examined (R381, R385). -/

/-- SYSCALL (R381). -/
def execSyscall (_code : BitVec 20) (s : State) : Host.Outcome State Fault Refusal :=
  s.issue {} fun _ => .raise .systemCall

/-- BREAK (R382). -/
def execBreak (_code : BitVec 20) (s : State) : Host.Outcome State Fault Refusal :=
  s.issue {} fun _ => .raise .breakpoint

/-- A trap instruction raises Trap if its condition holds, and otherwise does nothing (R385). -/
def State.trapIf (s : State) (c : Bool) : Effect := if c then .raise .trap else s.complete

/-- TGE (R386). -/
def execTge (rs rt : Reg) (_code : BitVec 10) (s : State) : Host.Outcome State Fault Refusal :=
  s.issue { level := .II } fun s => s.trapIf (!lessSigned (s.x rs) (s.x rt))

/-- TGEU (R387). -/
def execTgeu (rs rt : Reg) (_code : BitVec 10) (s : State) : Host.Outcome State Fault Refusal :=
  s.issue { level := .II } fun s => s.trapIf (!lessUnsigned (s.x rs) (s.x rt))

/-- TLT (R388). -/
def execTlt (rs rt : Reg) (_code : BitVec 10) (s : State) : Host.Outcome State Fault Refusal :=
  s.issue { level := .II } fun s => s.trapIf (lessSigned (s.x rs) (s.x rt))

/-- TLTU (R389). -/
def execTltu (rs rt : Reg) (_code : BitVec 10) (s : State) : Host.Outcome State Fault Refusal :=
  s.issue { level := .II } fun s => s.trapIf (lessUnsigned (s.x rs) (s.x rt))

/-- TEQ (R390). -/
def execTeq (rs rt : Reg) (_code : BitVec 10) (s : State) : Host.Outcome State Fault Refusal :=
  s.issue { level := .II } fun s => s.trapIf (s.x rs == s.x rt)

/-- TNE (R391). -/
def execTne (rs rt : Reg) (_code : BitVec 10) (s : State) : Host.Outcome State Fault Refusal :=
  s.issue { level := .II } fun s => s.trapIf (s.x rs != s.x rt)

/-- TGEI (R392). -/
def execTgei (rs : Reg) (immediate : BitVec 16) (s : State) : Host.Outcome State Fault Refusal :=
  s.issue { level := .II } fun s => s.trapIf (!lessSigned (s.x rs) (sext64 immediate))

/-- TGEIU (R393). -/
def execTgeiu (rs : Reg) (immediate : BitVec 16) (s : State) : Host.Outcome State Fault Refusal :=
  s.issue { level := .II } fun s => s.trapIf (!lessUnsigned (s.x rs) (sext64 immediate))

/-- TLTI (R394). -/
def execTlti (rs : Reg) (immediate : BitVec 16) (s : State) : Host.Outcome State Fault Refusal :=
  s.issue { level := .II } fun s => s.trapIf (lessSigned (s.x rs) (sext64 immediate))

/-- TLTIU (R395). -/
def execTltiu (rs : Reg) (immediate : BitVec 16) (s : State) : Host.Outcome State Fault Refusal :=
  s.issue { level := .II } fun s => s.trapIf (lessUnsigned (s.x rs) (sext64 immediate))

/-- TEQI (R396). -/
def execTeqi (rs : Reg) (immediate : BitVec 16) (s : State) : Host.Outcome State Fault Refusal :=
  s.issue { level := .II } fun s => s.trapIf (s.x rs == sext64 immediate)

/-- TNEI (R397). -/
def execTnei (rs : Reg) (immediate : BitVec 16) (s : State) : Host.Outcome State Fault Refusal :=
  s.issue { level := .II } fun s => s.trapIf (s.x rs != sext64 immediate)

/-! ## Serialization (46_misc.md section 2) -/

/-- SYNC: each load and store of the one processor has completed before the next instruction begins, so it has no
effect of its own (R400, R401). -/
def execSync (stype : BitVec 5) (s : State) : Host.Outcome State Fault Refusal :=
  s.issue { level := .II } fun s => if stype = 0#5 then s.complete else .refuse .syncStype

/-! ## Conditional moves (46_misc.md section 3) -/

/-- MOVN (R405). -/
def execMovn (rs rt rd : Reg) (s : State) : Host.Outcome State Fault Refusal :=
  s.issue { level := .IV } fun s => if s.x rt ≠ 0#64 then s.deliver rd (s.x rs) else s.complete

/-- MOVZ (R406). -/
def execMovz (rs rt rd : Reg) (s : State) : Host.Outcome State Fault Refusal :=
  s.issue { level := .IV } fun s => if s.x rt = 0#64 then s.deliver rd (s.x rs) else s.complete

/-! ## Prefetch: no state change and no addressing exception, for every hint (46_misc.md R410 to R412) -/

/-- PREF (R410). -/
def execPref (_base : Reg) (_hint : BitVec 5) (_offset : BitVec 16) (s : State) : Host.Outcome State Fault Refusal :=
  s.issue { level := .IV, memory := true } State.complete

/-- PREFX (R411). -/
def execPrefx (_base _index : Reg) (_hint : BitVec 5) (s : State) : Host.Outcome State Fault Refusal :=
  s.issue { level := .IV, unit := some 1, memory := true } State.complete

end Sys2Proof.Machine
end

