-- ==== Sys2Proof/Machine/MulDiv.lean ====
section
/-! DEFINITION. Multiply, divide and the moves of HI and LO (44_muldiv.md). -/

namespace Sys2Proof.Machine

/-! ## Writing HI and LO (44_muldiv.md R302, R315) -/

/-- HI and LO may both be written: neither was read within two instructions (R302). -/
def State.mayWriteHiLo (s : State) (next : Effect) : Effect :=
  if 0 < s.hiGuard ∨ 0 < s.loGuard then .refuse .hiLoHazard else next

/-- `LO <- lo ; HI <- hi ; hiloFresh <- 1`. -/
def State.setHiLo (s : State) (hi lo : Word) : State := { s with hi := hi, lo := lo, hiloFresh := true }

/-- The result of a multiply or divide; where it is undefined, `HI` and `LO` hold free values (R301, R316, notes 13
and 14). -/
def State.deliverHiLo (s : State) (defined : Bool) (hi lo : Word) : Effect :=
  s.mayWriteHiLo (if defined then s.setHiLo hi lo else s.setHiLo (s.freeWord 0) (s.freeWord 1)).complete

/-- The halves of a 64-bit product, each sign-extended (R303, R304). -/
def State.deliverProduct (s : State) (rs rt : Reg) (p : BitVec 64) : Effect :=
  s.deliverHiLo (s.areWords rs rt) (sext64 (p.extractLsb' 32 32)) (sext64 (p.extractLsb' 0 32))

/-- The halves of a 128-bit product (R307, R308). -/
def State.deliverLongProduct (s : State) (p : BitVec 128) : Effect :=
  s.deliverHiLo true (p.extractLsb' 64 64) (p.extractLsb' 0 64)

/-- A signed quotient of `w` bits is undefined: the divisor is zero, or the quotient does not fit (R305, R309, R316).
-/
def signedDivideOpen (w : Nat) (a b : Int) : Bool := b == 0 || (a == -2 ^ (w - 1) && b == -1)

/-! ## The word forms -/

/-- MULT (R303). -/
def execMult (rs rt : Reg) (s : State) : Host.Outcome State Fault Refusal :=
  s.issue { reads := [rs, rt] } fun s =>
    s.deliverProduct rs rt (BitVec.ofInt 64 ((low32 (s.x rs)).toInt * (low32 (s.x rt)).toInt))

/-- MULTU (R304). -/
def execMultu (rs rt : Reg) (s : State) : Host.Outcome State Fault Refusal :=
  s.issue { reads := [rs, rt] } fun s =>
    s.deliverProduct rs rt (BitVec.ofNat 64 ((low32 (s.x rs)).toNat * (low32 (s.x rt)).toNat))

/-- DIV: the quotient truncated toward zero, the remainder with the sign of the dividend (R300, R305). -/
def execDiv (rs rt : Reg) (s : State) : Host.Outcome State Fault Refusal :=
  s.issue { reads := [rs, rt] } fun s =>
    let a := (low32 (s.x rs)).toInt
    let b := (low32 (s.x rt)).toInt
    s.deliverHiLo (s.areWords rs rt && !signedDivideOpen 32 a b)
      (sext64 (BitVec.ofInt 32 (a.tmod b))) (sext64 (BitVec.ofInt 32 (a.tdiv b)))

/-- DIVU (R306). -/
def execDivu (rs rt : Reg) (s : State) : Host.Outcome State Fault Refusal :=
  s.issue { reads := [rs, rt] } fun s =>
    let a := (low32 (s.x rs)).toNat
    let b := (low32 (s.x rt)).toNat
    s.deliverHiLo (s.areWords rs rt && b != 0)
      (sext64 (BitVec.ofNat 32 (a % b))) (sext64 (BitVec.ofNat 32 (a / b)))

/-! ## The doubleword forms -/

/-- DMULT (R307). -/
def execDmult (rs rt : Reg) (s : State) : Host.Outcome State Fault Refusal :=
  s.issue { level := .III } fun s =>
    s.deliverLongProduct (BitVec.ofInt 128 ((s.x rs).toInt * (s.x rt).toInt))

/-- DMULTU (R308). -/
def execDmultu (rs rt : Reg) (s : State) : Host.Outcome State Fault Refusal :=
  s.issue { level := .III } fun s =>
    s.deliverLongProduct (BitVec.ofNat 128 ((s.x rs).toNat * (s.x rt).toNat))

/-- DDIV (R309). -/
def execDdiv (rs rt : Reg) (s : State) : Host.Outcome State Fault Refusal :=
  s.issue { level := .III } fun s =>
    let a := (s.x rs).toInt
    let b := (s.x rt).toInt
    s.deliverHiLo (!signedDivideOpen 64 a b) (BitVec.ofInt 64 (a.tmod b)) (BitVec.ofInt 64 (a.tdiv b))

/-- DDIVU (R310). -/
def execDdivu (rs rt : Reg) (s : State) : Host.Outcome State Fault Refusal :=
  s.issue { level := .III } fun s =>
    let a := (s.x rs).toNat
    let b := (s.x rt).toNat
    s.deliverHiLo (b != 0) (BitVec.ofNat 64 (a % b)) (BitVec.ofNat 64 (a / b))

/-! ## Moves -/

/-- `hiloFresh <- 0` (R315). -/
def State.staleHiLo (s : State) : State := { s with hiloFresh := false }

/-- MFHI (R311). -/
def execMfhi (rd : Reg) (s : State) : Host.Outcome State Fault Refusal :=
  s.issue { readsHi := true } fun s => s.staleHiLo.deliver rd s.hi

/-- MTHI; after a multiply or divide that nothing has read, `LO` is then undefined: a free value (R312, R315, note
15). -/
def execMthi (rs : Reg) (s : State) : Host.Outcome State Fault Refusal :=
  s.issue { reads := [rs] } fun s =>
    if 0 < s.hiGuard then .refuse .hiLoHazard
    else State.complete { s.staleHiLo with hi := s.x rs, lo := if s.hiloFresh then s.freeWord 0 else s.lo }

/-- MFLO (R313). -/
def execMflo (rd : Reg) (s : State) : Host.Outcome State Fault Refusal :=
  s.issue { readsLo := true } fun s => s.staleHiLo.deliver rd s.lo

/-- MTLO; after a multiply or divide that nothing has read, `HI` is then undefined: a free value (R314, R315, note
15). -/
def execMtlo (rs : Reg) (s : State) : Host.Outcome State Fault Refusal :=
  s.issue { reads := [rs] } fun s =>
    if 0 < s.loGuard then .refuse .hiLoHazard
    else State.complete { s.staleHiLo with lo := s.x rs, hi := if s.hiloFresh then s.freeWord 0 else s.hi }

end Sys2Proof.Machine
end

