-- ==== Sys2Proof/Machine/Shift.lean ====
section
/-! DEFINITION. The shifts (43_shift.md). -/

namespace Sys2Proof.Machine

/-! ## The word shifts: bits 31..0 of the operand, the result sign-extended (43_shift.md R271 to R276)

A right shift of an operand that is no word value has an undefined result (R272, note 13). -/

/-- SLL (R271). -/
def execSll (rt rd : Reg) (sa : BitVec 5) (s : State) : Host.Outcome State Fault Refusal :=
  s.issue { reads := [rt] } fun s => s.deliver rd (sext64 (low32 (s.x rt) <<< sa.toNat))

/-- SRL (R272). -/
def execSrl (rt rd : Reg) (sa : BitVec 5) (s : State) : Host.Outcome State Fault Refusal :=
  s.issue { reads := [rt] } fun s => s.deliverWord (!notWordValue (s.x rt)) rd (low32 (s.x rt) >>> sa.toNat)

/-- SRA (R273). -/
def execSra (rt rd : Reg) (sa : BitVec 5) (s : State) : Host.Outcome State Fault Refusal :=
  s.issue { reads := [rt] } fun s => s.deliverWord (!notWordValue (s.x rt)) rd ((low32 (s.x rt)).sshiftRight sa.toNat)

/-- SLLV (R274). -/
def execSllv (rs rt rd : Reg) (s : State) : Host.Outcome State Fault Refusal :=
  s.issue { reads := [rs, rt] } fun s => s.deliver rd (sext64 (low32 (s.x rt) <<< wordAmount (s.x rs)))

/-- SRLV (R275). -/
def execSrlv (rs rt rd : Reg) (s : State) : Host.Outcome State Fault Refusal :=
  s.issue { reads := [rs, rt] } fun s => s.deliverWord (!notWordValue (s.x rt)) rd (low32 (s.x rt) >>> wordAmount (s.x rs))

/-- SRAV (R276). -/
def execSrav (rs rt rd : Reg) (s : State) : Host.Outcome State Fault Refusal :=
  s.issue { reads := [rs, rt] } fun s => s.deliverWord (!notWordValue (s.x rt)) rd ((low32 (s.x rt)).sshiftRight (wordAmount (s.x rs)))

/-! ## The doubleword shifts (43_shift.md R277 to R285) -/

/-- DSLL (R277). -/
def execDsll (rt rd : Reg) (sa : BitVec 5) (s : State) : Host.Outcome State Fault Refusal :=
  s.issue { level := .III } fun s => s.deliver rd (s.x rt <<< sa.toNat)

/-- DSRL (R278). -/
def execDsrl (rt rd : Reg) (sa : BitVec 5) (s : State) : Host.Outcome State Fault Refusal :=
  s.issue { level := .III } fun s => s.deliver rd (s.x rt >>> sa.toNat)

/-- DSRA (R279). -/
def execDsra (rt rd : Reg) (sa : BitVec 5) (s : State) : Host.Outcome State Fault Refusal :=
  s.issue { level := .III } fun s => s.deliver rd ((s.x rt).sshiftRight sa.toNat)

/-- DSLL32 (R280). -/
def execDsll32 (rt rd : Reg) (sa : BitVec 5) (s : State) : Host.Outcome State Fault Refusal :=
  s.issue { level := .III } fun s => s.deliver rd (s.x rt <<< (32 + sa.toNat))

/-- DSRL32 (R281). -/
def execDsrl32 (rt rd : Reg) (sa : BitVec 5) (s : State) : Host.Outcome State Fault Refusal :=
  s.issue { level := .III } fun s => s.deliver rd (s.x rt >>> (32 + sa.toNat))

/-- DSRA32 (R282). -/
def execDsra32 (rt rd : Reg) (sa : BitVec 5) (s : State) : Host.Outcome State Fault Refusal :=
  s.issue { level := .III } fun s => s.deliver rd ((s.x rt).sshiftRight (32 + sa.toNat))

/-- DSLLV (R283). -/
def execDsllv (rs rt rd : Reg) (s : State) : Host.Outcome State Fault Refusal :=
  s.issue { level := .III } fun s => s.deliver rd (s.x rt <<< doubleAmount (s.x rs))

/-- DSRLV (R284). -/
def execDsrlv (rs rt rd : Reg) (s : State) : Host.Outcome State Fault Refusal :=
  s.issue { level := .III } fun s => s.deliver rd (s.x rt >>> doubleAmount (s.x rs))

/-- DSRAV (R285). -/
def execDsrav (rs rt rd : Reg) (s : State) : Host.Outcome State Fault Refusal :=
  s.issue { level := .III } fun s => s.deliver rd ((s.x rt).sshiftRight (doubleAmount (s.x rs)))

end Sys2Proof.Machine
end

