-- ==== Sys2Proof/Machine/Unaligned.lean ====
section
/-! DEFINITION. The unaligned loads and stores (40_load_store.md section 2). -/

namespace Sys2Proof.Machine

/-! ## The bytes selected (40_load_store.md R180, R181) -/

/-- Which end of the aligned object: the most significant (left) or the least (right). -/
inductive Side where
  | left | right
  deriving DecidableEq, Repr

/-- `k`: the offset of the address in the aligned object of `n` bytes that contains it. -/
def offsetIn (v : Word) (n : Nat) : Nat := v.toNat % n

/-- The selected bytes lie from the address up to the end of the aligned object (big-endian left, little-endian
right); otherwise from its beginning up to the address. -/
def selectsUpward (p : Params) (side : Side) : Bool :=
  match side with
  | .left => bigEndianCPU p
  | .right => !bigEndianCPU p

/-- How many bytes are selected: `n - k` or `k + 1`. -/
def selectedCount (p : Params) (side : Side) (v : Word) (n : Nat) : Nat :=
  if selectsUpward p side then n - offsetIn v n else offsetIn v n + 1

/-- How many are not: `s` of the left forms, `t` of the right forms. -/
def skippedCount (p : Params) (side : Side) (v : Word) (n : Nat) : Nat := n - selectedCount p side v n

/-- The cells of the selected bytes, in address order; `pa` is the translation of `v`. -/
def selectedCells (p : Params) (side : Side) (v : Word) (pa n : Nat) : List Nat :=
  dataCells p (if selectsUpward p side then pa else pa - offsetIn v n) (selectedCount p side v n)

/-! ## Merging into a register and selecting from it -/

/-- Left: the selected bytes above the low `8 s` bits of the old content, `Wd[31-8s:0] || x[rt][8s-1:0]` (R182,
R186). -/
def mergeLeft (w skipped value : Nat) (old : BitVec w) : BitVec w :=
  BitVec.ofNat w (value * 2 ^ (8 * skipped) + old.toNat % 2 ^ (8 * skipped))

/-- Right: the selected bytes below the high `8 t` bits of the old content, `x[rt][31:32-8t] || Wd[31:8t]` (R183,
R187). -/
def mergeRight (w selected value : Nat) (old : BitVec w) : BitVec w :=
  BitVec.ofNat w (old.toNat / 2 ^ (8 * selected) * 2 ^ (8 * selected) + value)

/-- The bytes of a register value of `n` bytes that a store selects: the most significant ones or the least
(R184, R185). -/
def storedPart (p : Params) (side : Side) (v : Word) (n value : Nat) : Nat :=
  match side with
  | .left => value / 2 ^ (8 * skippedCount p side v n)
  | .right => value % 2 ^ (8 * selectedCount p side v n)

/-! ## The accesses: one translation, no alignment check (R84, R181) -/

/-- Load the selected bytes. -/
def State.loadSide (s : State) (side : Side) (v : Word) (n : Nat) (next : Nat → State → Effect) : Effect :=
  s.translated .load v fun pa type =>
    s.perform .load pa type (selectedCells s.params side v pa n) fun s' =>
      next (s'.readCells (selectedCells s.params side v pa n)) s'

/-- Store the selected bytes of the low `n` bytes of a register. -/
def State.storeSide (s : State) (side : Side) (v : Word) (n value : Nat) : Effect :=
  s.translated .store v fun pa type =>
    s.perform .store pa type (selectedCells s.params side v pa n) fun s' =>
      (s'.writeCells (selectedCells s.params side v pa n)
        (storedPart s.params side v n (value % 2 ^ (8 * n)))).complete

/-- The old content is a source only when some bytes are not loaded (R182). -/
def State.mergeSource (s : State) (side : Side) (v : Word) (n : Nat) (rt : Reg) : Option Reg :=
  if skippedCount s.params side v n = 0 then none else some rt

/-- The register after LWR: when bit 31 was not loaded, bits 63..32 are either unchanged or the sign extension, an
open choice (R183, note 17). -/
def afterLwr (allLoaded unchanged : Bool) (old : Word) (low : Word32) : Word :=
  if allLoaded || !unchanged then sext64 low else old.extractLsb' 32 32 ++ low

/-! ## The instructions -/

/-- LWL (R182). -/
def execLwl (base rt : Reg) (offset : BitVec 16) (s : State) : Host.Outcome State Fault Refusal :=
  s.issue { memory := true, reads := [base], merges := s.mergeSource .left (s.address base offset) 4 rt,
            loads := some rt, mergeLoad := true } fun s =>
    s.loadSide .left (s.address base offset) 4 fun v s' =>
      s'.deliver rt
        (sext64 (mergeLeft 32 (skippedCount s.params .left (s.address base offset) 4) v (low32 (s.x rt))))

/-- LWR (R183). -/
def execLwr (base rt : Reg) (offset : BitVec 16) (s : State) : Host.Outcome State Fault Refusal :=
  s.issue { memory := true, reads := [base], merges := s.mergeSource .right (s.address base offset) 4 rt,
            loads := some rt, mergeLoad := true } fun s =>
    s.loadSide .right (s.address base offset) 4 fun v s' =>
      s'.deliver rt
        (afterLwr (skippedCount s.params .right (s.address base offset) 4 == 0) (s.freeBit 0) (s.x rt)
          (mergeRight 32 (selectedCount s.params .right (s.address base offset) 4) v (low32 (s.x rt))))

/-- SWL (R184). -/
def execSwl (base rt : Reg) (offset : BitVec 16) (s : State) : Host.Outcome State Fault Refusal :=
  s.issue { memory := true, reads := [base, rt] } fun s =>
    s.storeSide .left (s.address base offset) 4 (s.x rt).toNat

/-- SWR (R185). -/
def execSwr (base rt : Reg) (offset : BitVec 16) (s : State) : Host.Outcome State Fault Refusal :=
  s.issue { memory := true, reads := [base, rt] } fun s =>
    s.storeSide .right (s.address base offset) 4 (s.x rt).toNat

/-- LDL (R186). -/
def execLdl (base rt : Reg) (offset : BitVec 16) (s : State) : Host.Outcome State Fault Refusal :=
  s.issue { level := .III, memory := true } fun s =>
    s.loadSide .left (s.address base offset) 8 fun v s' =>
      s'.deliver rt (mergeLeft 64 (skippedCount s.params .left (s.address base offset) 8) v (s.x rt))

/-- LDR (R187). -/
def execLdr (base rt : Reg) (offset : BitVec 16) (s : State) : Host.Outcome State Fault Refusal :=
  s.issue { level := .III, memory := true } fun s =>
    s.loadSide .right (s.address base offset) 8 fun v s' =>
      s'.deliver rt (mergeRight 64 (selectedCount s.params .right (s.address base offset) 8) v (s.x rt))

/-- SDL (R188). -/
def execSdl (base rt : Reg) (offset : BitVec 16) (s : State) : Host.Outcome State Fault Refusal :=
  s.issue { level := .III, memory := true } fun s =>
    s.storeSide .left (s.address base offset) 8 (s.x rt).toNat

/-- SDR (R189). -/
def execSdr (base rt : Reg) (offset : BitVec 16) (s : State) : Host.Outcome State Fault Refusal :=
  s.issue { level := .III, memory := true } fun s =>
    s.storeSide .right (s.address base offset) 8 (s.x rt).toNat

end Sys2Proof.Machine
end

