-- ==== Sys2Proof/Machine/Fetch.lean ====
section
/-! DEFINITION. Fetching the word of an instruction (20_memory.md R78, 60_exceptions.md R443), and placing one where
the fetch finds it. -/

namespace Sys2Proof.Machine

/-- The cells of the instruction word at a physical address; fetch does not see `ReverseEndian` (20_memory.md R78). -/
def fetchCells (pa : Nat) : List Nat := [pa, pa + 1, pa + 2, pa + 3]

/-- The word in four cells, in the byte order of fetch, `BigEndianMem` (20_memory.md R78). -/
def State.fetchedWord (s : State) (pa : Nat) : Word32 :=
  BitVec.ofNat 32 (assemble s.params.bigEndianMem ((fetchCells pa).map (Memory.read s.mem)))

/-- Fetch the instruction word at `pc` and go on with it, or raise an exception in the order of 60_exceptions.md R443,
or refuse a word that a store of the run has written (20_memory.md R110). -/
def State.fetch (s : State) (next : Word32 → Host.Outcome State Fault Refusal) : Host.Outcome State Fault Refusal :=
  if s.pc.toNat % 4 ≠ 0 then .next (s.takeException (.addressError .fetch s.pc))
  else
    match translate s.params .fetch s.pc with
    | .error e => .next (s.takeException e)
    | .ok (pa, _) =>
      if busErrorAt s.params .fetch pa then .next (s.takeException (.busError .fetch))
      else if (fetchCells pa).any (History.stored s.history) then .refused .fetchOfStoredByte
      else next (s.fetchedWord pa)

/-- Forget the stores of a byte. -/
def History.forget (h : List (Nat × Note)) : List Nat → List (Nat × Note)
  | [] => h
  | a :: cells => History.forget (Assoc.remove h a) cells

/-- Where the fetch at `pc` reads, if the translation answers an address. -/
def State.fetchAddress (s : State) : Option Nat :=
  match translate s.params .fetch s.pc with
  | .error _ => none
  | .ok (pa, _) => some pa

/-- A word loaded from outside at the place the next fetch reads (note 34): its bytes in the order of fetch, with no
store of the run known there, on a machine that is running, whose environment is quiet and whose next instruction is
not nullified. -/
def State.placeWord (s : State) (w : Word32) : State :=
  match s.fetchAddress with
  | none => s
  | some pa =>
    { s with
      mem := Memory.writeAll s.mem ((fetchCells pa).zip (disassemble s.params.bigEndianMem 4 w.toNat))
      history := History.forget s.history (fetchCells pa)
      delay := if s.delay = .nullify then .none else s.delay
      trap := none
      env := [] }

end Sys2Proof.Machine
end

