-- ==== Sys2Proof/Machine/Cycle.lean ====
section
/-! DEFINITION. The step cycle (10_state.md R43), and what the environment does between two instructions (R45,
60_exceptions.md R460, R477). -/

namespace Sys2Proof.Machine

/-! ## The environment (note 11) -/

/-- The cells of the linked location: those its load and its conditional store access. -/
def Link.cells (l : Link) (p : Params) : List Nat := dataCells p l.paddr l.size.bytes

/-- A byte lies in the block that contains the linked location (41_atomic_coproc_load_store.md R205). DESIGN CHOICE,
note 41: the spec bounds the size of the block and does not place it; here blocks are naturally aligned, `LLblock`
bytes each, and the block of the location is every one that holds a byte of it, so that it is never smaller than the
word or doubleword. -/
def Link.covers (l : Link) (p : Params) (a : Nat) : Bool := (l.cells p).any fun c => c / p.llBlock == a / p.llBlock

/-- What another agent can store of these bytes: physical addresses have `PSIZE` bits (20_memory.md R72), and only
memory of coherent type changes (60_exceptions.md R477). -/
def State.agentCells (s : State) (bytes : List Host.Cell) : List Host.Cell :=
  (bytes.map fun c => (c.1 % 2 ^ s.params.psize, c.2)).filter fun c => coherentCell s.params c.1

/-- Another agent stores bytes; a store into the block of the linked location clears `LLbit` (10_state.md R45,
41_atomic_coproc_load_store.md R205). -/
def State.agentStore (s : State) (bytes : List Host.Cell) : State :=
  { s with
    mem := Memory.writeAll s.mem (s.agentCells bytes)
    llbit := s.llbit && !(s.link.any fun l => (s.agentCells bytes).any fun c => l.covers s.params c.1) }

/-- One event. A resumption concerns an ended run only. -/
def State.applyEvent (s : State) : EnvEvent → State
  | .quiet => s
  | .clearLink => { s with llbit := false }
  | .agentStore bytes => s.agentStore bytes
  | .clearAndStore bytes => State.agentStore { s with llbit := false } bytes
  | .resume pc changes => if s.trap.isSome then s.resume pc changes else s

/-- The environment acts once: the head of the queue, if there is one. -/
def State.environment (s : State) : State :=
  match s.env with
  | [] => s
  | e :: rest => State.applyEvent { s with env := rest } e

/-! ## One instruction time -/

/-- What the step does with a decoded word, in the order of 60_exceptions.md R455, steps 3 to 7 (30_encoding.md R137,
R140, R141, 47_coprocessor.md R425). -/
def State.runDecoded (s : State) (d : Decoded) : Host.Outcome State Fault Refusal :=
  match d with
  | .instr i => exec i s
  | .requiredZero level =>
    if s.params.archLevel.rank < level.rank then .next (s.takeException .reservedInstruction)
    else .refused .requiredZeroField
  | .cop1xArithmetic => s.issue { level := .IV, unit := some 1 } fun _ => .refuse .fpuInstruction
  | .cop1xReserved => s.issue { level := .IV, unit := some 1 } fun _ => .raise .reservedInstruction
  | .reserved => .next (s.takeException .reservedInstruction)

/-- The nullified slot: `pc` moves on and nothing else happens (10_state.md R42). -/
def State.skipSlot (s : State) : State := { s with pc := s.pc + 4#64, delay := .none }

/-- The step cycle of a running machine (10_state.md R43). -/
def State.cycle (s : State) : Host.Outcome State Fault Refusal :=
  if s.delay = .nullify then .next s.skipSlot else s.fetch fun w => s.runDecoded (decode w)

/-- A run that has ended with a Trap outcome goes on only if the environment acts (60_exceptions.md R460, note 10). -/
def State.ended (s : State) (r : TrapRecord) : Host.Outcome State Fault Refusal :=
  match s.env with
  | [] => .fault (.trapOutcome r)
  | _ :: _ => .next s.environment

/-- One step: the environment, then one instruction time; or a step of an ended run. -/
def State.oneStep (s : State) : Host.Outcome State Fault Refusal :=
  match s.trap with
  | some r => s.ended r
  | none => s.environment.cycle

end Sys2Proof.Machine
end

