-- ==== Sys2Proof/Machine/Step.lean ====
section
/-! DEFINITION. The step function, and the placing of an instruction where it fetches. -/

namespace Sys2Proof.Machine

/-- One step of the machine (10_state.md R43). -/
def step (s : State) : Host.Outcome State Fault Refusal := s.oneStep

/-- The instruction whose bits are `w`, `nbits` of them, stored where `step` fetches its next instruction (note 34). -/
def State.withFetchWord (s : State) (nbits w : Nat) : State := s.placeWord (BitVec.ofNat 32 (w % 2 ^ nbits))

end Sys2Proof.Machine
end

