-- ==== Sys2Proof/Safety.lean ====
section
/-! DEFINITION. The terms of the statements: the invariant that every step keeps, what a completed instruction leaves
unchanged, what an exception leaves unchanged, and when a data access can be made. -/

namespace Sys2Proof.Machine

/-! ## The invariant -/

/-- Every key is a physical address (20_memory.md R72). -/
def keysBelow {α : Type} (bound : Nat) (xs : List (Nat × α)) : Bool := xs.all fun c => decide (c.1 < bound)

/-- The invariant. `launch`: the physical address width leaves room for a doubleword. The rest: `x[0]` is zero
(10_state.md R32), the guards are in 0, 1, 2 (R30), a set `LLbit` belongs to a linked location (R45), memory and the
record of accesses have their canonical form and hold physical addresses only (20_memory.md R72), and a load delay
exists at `ArchLevel` I only (70_reset_and_hazards.md R500). -/
structure State.Inv (s : State) : Prop where
  launch : 3 ≤ s.params.psize
  zero : s.gpr[0] = 0#64
  hiGuard : s.hiGuard ≤ 2
  loGuard : s.loGuard ≤ 2
  linked : s.llbit = true → s.link.isSome = true
  memory : Memory.wf s.mem = true
  memoryKeys : keysBelow (2 ^ s.params.psize) s.mem = true
  history : Assoc.rising s.history = true
  historyKeys : keysBelow (2 ^ s.params.psize) s.history = true
  loadDelay : s.loadDelay.isSome = true → s.params.archLevel = .I

/-! ## What a completed instruction leaves unchanged -/

/-- Every general register but the named ones. -/
def KeepsGprs (s t : State) (except : List Reg) : Prop := ∀ r, r ∉ except → t.x r = s.x r

/-- `HI`, `LO` and whether they are unread. -/
def KeepsHiLo (s t : State) : Prop := t.hi = s.hi ∧ t.lo = s.lo ∧ t.hiloFresh = s.hiloFresh

/-- The guards count down (44_muldiv.md R302). -/
def CountsDown (s t : State) : Prop := t.hiGuard = s.hiGuard - 1 ∧ t.loGuard = s.loGuard - 1

/-- `LLbit` and `LLaddr`. -/
def KeepsLink (s t : State) : Prop :=
  t.llbit = s.llbit ∧ (t.link.map fun l => (l.vaddr, l.size)) = s.link.map fun l => (l.vaddr, l.size)

/-- The units 0, 2 and 3, and the condition codes and status register of unit 1 beyond its condition signal. -/
def KeepsOtherCops (s t : State) : Prop :=
  t.cop0 = s.cop0 ∧ t.cop2 = s.cop2 ∧ t.cop3 = s.cop3 ∧ t.fccHigh = s.fccHigh ∧ t.fcsr = s.fcsr

/-- Every coprocessor register. -/
def KeepsCops (s t : State) : Prop := t.cop1 = s.cop1 ∧ KeepsOtherCops s t

/-- Every byte of memory outside the named cells. -/
def KeepsMemory (s t : State) (cells : List Nat) : Prop :=
  ∀ a, a ∉ cells → Memory.read t.mem a = Memory.read s.mem a

/-- The machine goes on, at the target of a pending branch or at the next word, with this delay value; the launch
parameters and the environment are as before (10_state.md R39, R43). -/
structure Advances (s t : State) (d : Delay) : Prop where
  taken : ∀ target, s.delay = .taken target → t.pc = target
  next : (∀ target, s.delay ≠ .taken target) → t.pc = s.pc + 4#64
  delay : t.delay = d
  trap : t.trap = s.trap
  params : t.params = s.params
  env : t.env = s.env

/-- Completed, writing one general register, with `x[0]` staying zero (10_state.md R32), and nothing else. -/
structure WritesGpr (s t : State) (rd : Reg) (v : Word) (d : Delay) : Prop where
  result : t.x rd = if rd = 0#5 then 0#64 else v
  gprs : KeepsGprs s t [rd]
  hilo : KeepsHiLo s t
  guards : CountsDown s t
  link : KeepsLink s t
  cops : KeepsCops s t
  memory : KeepsMemory s t []
  advances : Advances s t d

/-- Completed, writing nothing. -/
structure WritesNothing (s t : State) (d : Delay) : Prop where
  gprs : KeepsGprs s t []
  hilo : KeepsHiLo s t
  guards : CountsDown s t
  link : KeepsLink s t
  cops : KeepsCops s t
  memory : KeepsMemory s t []
  advances : Advances s t d

/-- Completed, writing `HI` and `LO` as a pair that nothing has read (44_muldiv.md R315). -/
structure WritesHiLo (s t : State) (hi lo : Word) : Prop where
  hi : t.hi = hi
  lo : t.lo = lo
  fresh : t.hiloFresh = true
  gprs : KeepsGprs s t []
  guards : CountsDown s t
  link : KeepsLink s t
  cops : KeepsCops s t
  memory : KeepsMemory s t []
  advances : Advances s t .none

/-- The access of the cells, with this access type, is remembered, a store as one; what is remembered of every other
byte is as before (20_memory.md R94, R110). -/
def Records (s t : State) (type : AccessType) (store : Bool) (cells : List Nat) : Prop :=
  (∀ a ∈ cells, Assoc.find t.history a = some ⟨type, store || History.stored s.history a⟩) ∧
  ∀ a, a ∉ cells → Assoc.find t.history a = Assoc.find s.history a

/-- The sequence that a linked load began goes on with the instruction at `pc`: whether a load, store or prefetch has
completed, and the lowest and highest instruction address (41_atomic_coproc_load_store.md R205, note 18). -/
def Tracks (s t : State) (access : Bool) : Prop :=
  ∀ l, s.link = some l → ∃ l', t.link = some l' ∧ l'.vaddr = l.vaddr ∧ l'.size = l.size ∧ l'.paddr = l.paddr ∧
    l'.disturbed = (l.disturbed || access) ∧ l'.low.toNat = min l.low.toNat s.pc.toNat ∧
    l'.high.toNat = max l.high.toNat s.pc.toNat

/-- Completed, storing to the named cells only, with this access type. -/
structure WritesMemory (s t : State) (type : AccessType) (cells : List Nat) : Prop where
  memory : KeepsMemory s t cells
  history : Records s t type true cells
  gprs : KeepsGprs s t []
  hilo : KeepsHiLo s t
  guards : CountsDown s t
  link : KeepsLink s t
  cops : KeepsCops s t
  advances : Advances s t .none

/-- Completed with an access of unit 2: its registers may change, those of the other units do not. -/
structure KeepsButUnitTwo (s t : State) : Prop where
  cop0 : t.cop0 = s.cop0
  cop1 : t.cop1 = s.cop1
  cop3 : t.cop3 = s.cop3
  fccHigh : t.fccHigh = s.fccHigh
  fcsr : t.fcsr = s.fcsr
  gprs : KeepsGprs s t []
  hilo : KeepsHiLo s t
  guards : CountsDown s t
  link : KeepsLink s t
  advances : Advances s t .none

/-- Completed, writing registers of unit 1 only; its control registers and condition signal are unchanged. -/
structure WritesFgrs (s t : State) (except : List Reg) : Prop where
  fgrs : ∀ i, i ∉ except → t.fgr i = s.fgr i
  control : t.cop1.ccr = s.cop1.ccr ∧ t.cop1.coc = s.cop1.coc
  others : KeepsOtherCops s t
  gprs : KeepsGprs s t []
  hilo : KeepsHiLo s t
  guards : CountsDown s t
  link : KeepsLink s t
  memory : KeepsMemory s t []
  advances : Advances s t .none

/-! ## What an exception leaves unchanged (60_exceptions.md R440, R460) -/

/-- The record of the Trap outcome is written, and everything else is as before the victim executed; `ticks` is the
model's own counter. -/
structure Raises (s t : State) (e : Exception) : Prop where
  exception : ∃ r, t.trap = some r ∧ r.exception = e ∧ r.victim = s.pc
  inSlot : (∃ target, s.delay = .taken target) ∨ s.delay = .notTaken →
    ∃ r, t.trap = some r ∧ r.inDelaySlot = true ∧ r.restart = s.pc - 4#64
  notInSlot : s.delay = .none → ∃ r, t.trap = some r ∧ r.inDelaySlot = false ∧ r.restart = s.pc
  rest : t = { s with trap := t.trap, ticks := t.ticks }

/-! ## What the platform changes when it resumes an ended run (60_exceptions.md R460, note 40) -/

/-- The two changes are of the same part of the state: the later one replaces the earlier. -/
def Alteration.samePart (p : Params) : Alteration → Alteration → Bool
  | .gpr r _, .gpr q _ => r == q
  | .hi _, .hi _ => true
  | .lo _, .lo _ => true
  | .hiGuard _, .hiGuard _ => true
  | .loGuard _, .loGuard _ => true
  | .hiloFresh _, .hiloFresh _ => true
  | .linked _, .linked _ => true
  | .cpr z i _, .cpr y j _ => z == y && i == j
  | .ccr z i _, .ccr y j _ => z == y && i == j
  | .coc z _, .coc y _ => z == y
  | .fccHigh _, .fccHigh _ => true
  | .fcsr _, .fcsr _ => true
  | .byte a _, .byte b _ => a % 2 ^ p.psize == b % 2 ^ p.psize
  | .remembered a _, .remembered b _ => a % 2 ^ p.psize == b % 2 ^ p.psize
  | _, _ => false

/-- The part that the change names has the value it gives. -/
def Alteration.Holds (t : State) : Alteration → Prop
  | .gpr r v => t.x r = if r = 0#5 then 0#64 else v
  | .hi v => t.hi = v
  | .lo v => t.lo = v
  | .hiGuard n => t.hiGuard = n.val
  | .loGuard n => t.loGuard = n.val
  | .hiloFresh b => t.hiloFresh = b
  | .linked l => t.link = l
  | .cpr z i v => readCpr (t.cop z) i = v
  | .ccr z i v => readCcr (t.cop z) i = v
  | .coc z b => (t.cop z).coc = b
  | .fccHigh v => t.fccHigh = v
  | .fcsr v => t.fcsr = v
  | .byte a b => Memory.read t.mem (a % 2 ^ t.params.psize) = b
  | .remembered a n => Assoc.find t.history (a % 2 ^ t.params.psize) = n

/-- Every part of the state that no change names is as before. -/
structure KeepsUnaltered (s t : State) (changes : List Alteration) : Prop where
  gprs : ∀ r, (∀ v, .gpr r v ∉ changes) → t.x r = s.x r
  hi : (∀ v, .hi v ∉ changes) → t.hi = s.hi
  lo : (∀ v, .lo v ∉ changes) → t.lo = s.lo
  hiGuard : (∀ n, .hiGuard n ∉ changes) → t.hiGuard = s.hiGuard
  loGuard : (∀ n, .loGuard n ∉ changes) → t.loGuard = s.loGuard
  hiloFresh : (∀ b, .hiloFresh b ∉ changes) → t.hiloFresh = s.hiloFresh
  link : (∀ l, .linked l ∉ changes) → t.link = s.link
  cprs : ∀ z i, (∀ v, .cpr z i v ∉ changes) → readCpr (t.cop z) i = readCpr (s.cop z) i
  ccrs : ∀ z i, (∀ v, .ccr z i v ∉ changes) → readCcr (t.cop z) i = readCcr (s.cop z) i
  cocs : ∀ z, (∀ b, .coc z b ∉ changes) → (t.cop z).coc = (s.cop z).coc
  fccHigh : (∀ v, .fccHigh v ∉ changes) → t.fccHigh = s.fccHigh
  fcsr : (∀ v, .fcsr v ∉ changes) → t.fcsr = s.fcsr
  memory : ∀ a, (∀ a' b, .byte a' b ∈ changes → a' % 2 ^ s.params.psize ≠ a) →
    Memory.read t.mem a = Memory.read s.mem a
  history : ∀ a, (∀ a' n, .remembered a' n ∈ changes → a' % 2 ^ s.params.psize ≠ a) →
    Assoc.find t.history a = Assoc.find s.history a

/-! ## When an instruction can begin, and when a data access can be made -/

/-- `ArchLevel` includes the level (00_scope.md R6). -/
def State.supports (s : State) (l : Level) : Bool := decide (l.rank ≤ s.params.archLevel.rank)

/-- None of these registers is in the MIPS I load delay slot (70_reset_and_hazards.md R500). -/
def State.settled (s : State) (rs : List Reg) : Bool := s.loadDelay.all fun d => !rs.contains d.reg

/-- Both guards are down (44_muldiv.md R302). -/
def State.unguarded (s : State) : Bool := s.hiGuard == 0 && s.loGuard == 0

/-- A data access at `v` of these cells meets no exception and no refusal: the address translates to `pa` with the
access type, no cell was last accessed with another type, and no Bus Error is reported (40_load_store.md R161). -/
structure Accessible (s : State) (kind : AccessKind) (v : Word) (pa : Nat) (type : AccessType) (cells : List Nat) :
    Prop where
  translated : translate s.params kind v = .ok (pa, type)
  unmixed : History.mixed s.history type cells = false
  quiet : busErrorAt s.params kind pa = false

/-- The byte that loads and stores see at a physical address (20_memory.md R77, R78). -/
def State.byteAt (s : State) (pa : Nat) : Byte := Memory.read s.mem (dataCell s.params pa)

/-- `MemRead` of a halfword, a word and a doubleword, as R80 of 20_memory.md writes it. -/
def State.halfAt (s : State) (pa : Nat) : BitVec 16 :=
  if bigEndianCPU s.params then s.byteAt pa ++ s.byteAt (pa + 1) else s.byteAt (pa + 1) ++ s.byteAt pa

def State.wordAt (s : State) (pa : Nat) : Word32 :=
  if bigEndianCPU s.params then s.byteAt pa ++ s.byteAt (pa + 1) ++ s.byteAt (pa + 2) ++ s.byteAt (pa + 3)
  else s.byteAt (pa + 3) ++ s.byteAt (pa + 2) ++ s.byteAt (pa + 1) ++ s.byteAt pa

def State.doubleAt (s : State) (pa : Nat) : Word :=
  if bigEndianCPU s.params then
    s.byteAt pa ++ s.byteAt (pa + 1) ++ s.byteAt (pa + 2) ++ s.byteAt (pa + 3) ++
      s.byteAt (pa + 4) ++ s.byteAt (pa + 5) ++ s.byteAt (pa + 6) ++ s.byteAt (pa + 7)
  else
    s.byteAt (pa + 7) ++ s.byteAt (pa + 6) ++ s.byteAt (pa + 5) ++ s.byteAt (pa + 4) ++
      s.byteAt (pa + 3) ++ s.byteAt (pa + 2) ++ s.byteAt (pa + 1) ++ s.byteAt pa

/-- The instruction word at a physical address, in the byte order of fetch (20_memory.md R78). -/
def State.instructionAt (s : State) (pa : Nat) : Word32 :=
  if s.params.bigEndianMem then
    Memory.read s.mem pa ++ Memory.read s.mem (pa + 1) ++ Memory.read s.mem (pa + 2) ++ Memory.read s.mem (pa + 3)
  else
    Memory.read s.mem (pa + 3) ++ Memory.read s.mem (pa + 2) ++ Memory.read s.mem (pa + 1) ++ Memory.read s.mem pa

/-- The fetch at `pc` meets no exception and no refusal, and reads at `pa` (60_exceptions.md R443, 20_memory.md
R110). -/
structure Fetchable (s : State) (pa : Nat) : Prop where
  aligned : s.pc.toNat % 4 = 0
  translated : ∃ type, translate s.params .fetch s.pc = .ok (pa, type)
  quiet : busErrorAt s.params .fetch pa = false
  unstored : ((fetchCells pa).any (History.stored s.history)) = false

/-- The machine is about to execute the instruction at `pc`: the run has not ended, the environment is quiet and the
instruction is not nullified. -/
structure Running (s : State) : Prop where
  trap : s.trap = none
  env : s.env = []
  delay : s.delay ≠ .nullify

/-- Bits 63..31 are all equal: a word value (00_scope.md R10, 10_state.md R36). -/
def IsWordValue (v : Word) : Prop := v.extractLsb' 31 33 = 0#33 ∨ v.extractLsb' 31 33 = BitVec.allOnes 33

/-! ## Kinds of instructions -/

/-- The jumps and branches (45_jump_branch.md R330). -/
def isBranch : Instr → Bool
  | .j _ | .jal _ | .jr _ | .jalr _ _ | .beq _ _ _ | .bne _ _ _ | .blez _ _ | .bgtz _ _ | .beql _ _ _
  | .bnel _ _ _ | .blezl _ _ | .bgtzl _ _ | .bltz _ _ | .bgez _ _ | .bltzl _ _ | .bgezl _ _ | .bltzal _ _
  | .bgezal _ _ | .bltzall _ _ | .bgezall _ _ => true
  | _ => false

/-- The instructions that write `HI` or `LO` (10_state.md R35). -/
def writesHiLo : Instr → Bool
  | .mult _ _ | .multu _ _ | .div _ _ | .divu _ _ | .dmult _ _ | .dmultu _ _ | .ddiv _ _ | .ddivu _ _ | .mthi _
  | .mtlo _ => true
  | _ => false

/-- The instructions that store to memory (20_memory.md R73). -/
def isStore : Instr → Bool
  | .sb _ _ _ | .sh _ _ _ | .sw _ _ _ | .sd _ _ _ | .swl _ _ _ | .swr _ _ _ | .sdl _ _ _ | .sdr _ _ _ | .sc _ _ _
  | .scd _ _ _ | .swc1 _ _ _ | .swc2 _ _ _ | .sdc1 _ _ _ | .sdc2 _ _ _ | .swxc1 _ _ _ | .sdxc1 _ _ _ => true
  | _ => false

/-- The linked loads and the conditional stores (10_state.md R45). -/
def isLinked : Instr → Bool
  | .ll _ _ _ | .lld _ _ _ | .sc _ _ _ | .scd _ _ _ => true
  | _ => false

/-- The unit an instruction addresses (47_coprocessor.md R421). -/
def unitOf : Instr → Option (Fin 4)
  | .cop0 _ _ => some 0
  | .cop1 _ _ | .lwc1 _ _ _ | .ldc1 _ _ _ | .swc1 _ _ _ | .sdc1 _ _ _ | .lwxc1 _ _ _ | .ldxc1 _ _ _
  | .swxc1 _ _ _ | .sdxc1 _ _ _ | .prefx _ _ _ | .movci _ _ _ _ => some 1
  | .cop2 _ _ | .lwc2 _ _ _ | .ldc2 _ _ _ | .swc2 _ _ _ | .sdc2 _ _ _ => some 2
  | _ => none

/-- The register and register of an indexed address (41_atomic_coproc_load_store.md R220). -/
def indexedBy : Instr → Option (Reg × Reg)
  | .lwxc1 base index _ | .ldxc1 base index _ | .swxc1 base index _ | .sdxc1 base index _ => some (base, index)
  | _ => none

/-- The size that a conditional store asks of its linked location. -/
def conditionalSize : Instr → Option LinkSize
  | .sc _ _ _ => some .word
  | .scd _ _ _ => some .double
  | _ => none

/-! ## The load delay slot of MIPS I (70_reset_and_hazards.md R500) -/

/-- The general registers that an instruction of MIPS I reads as sources, but for the register that LWL and LWR merge
with. -/
def sourcesOf : Instr → List Reg
  | .lb base _ _ | .lbu base _ _ | .lh base _ _ | .lhu base _ _ | .lw base _ _ | .lwl base _ _ | .lwr base _ _
  | .lwc1 base _ _ | .lwc2 base _ _ | .swc1 base _ _ | .swc2 base _ _ => [base]
  | .sb base rt _ | .sh base rt _ | .sw base rt _ | .swl base rt _ | .swr base rt _ => [base, rt]
  | .addi rs _ _ | .addiu rs _ _ | .slti rs _ _ | .sltiu rs _ _ | .andi rs _ _ | .ori rs _ _ | .xori rs _ _ => [rs]
  | .add rs rt _ | .addu rs rt _ | .sub rs rt _ | .subu rs rt _ | .slt rs rt _ | .sltu rs rt _ | .and rs rt _
  | .or rs rt _ | .xor rs rt _ | .nor rs rt _ => [rs, rt]
  | .sll rt _ _ | .srl rt _ _ | .sra rt _ _ => [rt]
  | .sllv rs rt _ | .srlv rs rt _ | .srav rs rt _ => [rs, rt]
  | .mult rs rt | .multu rs rt | .div rs rt | .divu rs rt => [rs, rt]
  | .mthi rs | .mtlo rs | .jr rs | .jalr rs _ => [rs]
  | .beq rs rt _ | .bne rs rt _ => [rs, rt]
  | .blez rs _ | .bgtz rs _ | .bltz rs _ | .bgez rs _ | .bltzal rs _ | .bgezal rs _ => [rs]
  | _ => []

/-- The register that LWL or LWR merges with, when it does not load all four bytes (40_load_store.md R182, R183). -/
def mergedBy (s : State) : Instr → Option Reg
  | .lwl base rt offset =>
    if (s.x base + sext64 offset).toNat % 4 = (if bigEndianCPU s.params then 0 else 3) then none else some rt
  | .lwr base rt offset =>
    if (s.x base + sext64 offset).toNat % 4 = (if bigEndianCPU s.params then 3 else 0) then none else some rt
  | _ => none

/-- What a load of MIPS I puts in the load delay slot. -/
def loadedBy : Instr → Option LoadDelay
  | .lb _ rt _ | .lbu _ rt _ | .lh _ rt _ | .lhu _ rt _ | .lw _ rt _ => if rt = 0#5 then none else some ⟨rt, false⟩
  | .lwl _ rt _ | .lwr _ rt _ => if rt = 0#5 then none else some ⟨rt, true⟩
  | _ => none

/-- The instruction may follow the load before it: it has no use of the loaded register but to merge LWL or LWR with
what LWL or LWR loaded. -/
def MayFollow (s : State) (i : Instr) : Prop :=
  ∀ d, s.loadDelay = some d → d.reg ∉ sourcesOf i ∧ (mergedBy s i = some d.reg → d.merge = true)

/-! ## The data access of an instruction (40_load_store.md R160, R161, 41_atomic_coproc_load_store.md R220) -/

/-- A data access: load or store, the virtual address, the alignment it must have, and the cells when it translates to
a physical address. -/
structure DataAccess where
  kind : AccessKind
  vaddr : Word
  align : Nat
  cells : Nat → List Nat

/-- An access of `n` aligned bytes. -/
def alignedAccess (s : State) (kind : AccessKind) (v : Word) (n : Nat) : DataAccess :=
  ⟨kind, v, n, fun pa => dataCells s.params pa n⟩

/-- An access of the selected bytes of `n`, at any address (20_memory.md R84). -/
def sideAccess (s : State) (kind : AccessKind) (side : Side) (v : Word) (n : Nat) : DataAccess :=
  ⟨kind, v, 1, fun pa => selectedCells s.params side v pa n⟩

/-- The data access of each load and store. -/
def accessOf (s : State) : Instr → Option DataAccess
  | .lb base _ offset | .lbu base _ offset => some (alignedAccess s .load (s.x base + sext64 offset) 1)
  | .lh base _ offset | .lhu base _ offset => some (alignedAccess s .load (s.x base + sext64 offset) 2)
  | .lw base _ offset | .lwu base _ offset | .ll base _ offset | .lwc1 base _ offset | .lwc2 base _ offset =>
    some (alignedAccess s .load (s.x base + sext64 offset) 4)
  | .ld base _ offset | .lld base _ offset | .ldc1 base _ offset | .ldc2 base _ offset =>
    some (alignedAccess s .load (s.x base + sext64 offset) 8)
  | .sb base _ offset => some (alignedAccess s .store (s.x base + sext64 offset) 1)
  | .sh base _ offset => some (alignedAccess s .store (s.x base + sext64 offset) 2)
  | .sw base _ offset | .sc base _ offset | .swc1 base _ offset | .swc2 base _ offset =>
    some (alignedAccess s .store (s.x base + sext64 offset) 4)
  | .sd base _ offset | .scd base _ offset | .sdc1 base _ offset | .sdc2 base _ offset =>
    some (alignedAccess s .store (s.x base + sext64 offset) 8)
  | .lwl base _ offset => some (sideAccess s .load .left (s.x base + sext64 offset) 4)
  | .lwr base _ offset => some (sideAccess s .load .right (s.x base + sext64 offset) 4)
  | .ldl base _ offset => some (sideAccess s .load .left (s.x base + sext64 offset) 8)
  | .ldr base _ offset => some (sideAccess s .load .right (s.x base + sext64 offset) 8)
  | .swl base _ offset => some (sideAccess s .store .left (s.x base + sext64 offset) 4)
  | .swr base _ offset => some (sideAccess s .store .right (s.x base + sext64 offset) 4)
  | .sdl base _ offset => some (sideAccess s .store .left (s.x base + sext64 offset) 8)
  | .sdr base _ offset => some (sideAccess s .store .right (s.x base + sext64 offset) 8)
  | .lwxc1 base index _ => some (alignedAccess s .load (s.x base + s.x index) 4)
  | .ldxc1 base index _ => some (alignedAccess s .load (s.x base + s.x index) 8)
  | .swxc1 base index _ => some (alignedAccess s .store (s.x base + s.x index) 4)
  | .sdxc1 base index _ => some (alignedAccess s .store (s.x base + s.x index) 8)
  | _ => none

/-- A load, a store or a prefetch: what may disturb the sequence of a linked load (41_atomic_coproc_load_store.md
R205). -/
def isAccess (s : State) (i : Instr) : Bool :=
  (accessOf s i).isSome ||
    match i with
    | .pref _ _ _ | .prefx _ _ _ => true
    | _ => false

/-- A load or store reaches its access: nothing before the check of its alignment stops it (60_exceptions.md R455). -/
structure Ready (s : State) (i : Instr) : Prop where
  level : s.supports i.level = true
  usable : ∀ z, unitOf i = some z → unitUsable s.params z = true
  follows : MayFollow s i
  region : ∀ base index, indexedBy i = some (base, index) →
    (s.x base + s.x index).extractLsb' 62 2 = (s.x base).extractLsb' 62 2

/-- A conditional store at `v` is certain to store: the linked load of this address and size came before, `LLbit` is
set, no load, store or prefetch came between, and the sequence, the instruction at `pc` included, lies in 2048 bytes
(41_atomic_coproc_load_store.md R202, R205). -/
structure Guaranteed (s : State) (v : Word) (size : LinkSize) (l : Link) : Prop where
  link : s.link = some l
  vaddr : l.vaddr = v
  size : l.size = size
  llbit : s.llbit = true
  undisturbed : l.disturbed = false
  window : l.high.toNat + 4 ≤ l.low.toNat + 2048
  above : s.pc.toNat + 4 ≤ l.low.toNat + 2048
  below : l.high.toNat + 4 ≤ s.pc.toNat + 2048

end Sys2Proof.Machine
end

