-- ==== Sys2Proof/Certificates/Slice0/Obligations.lean ====
section
/-! DEFINITION. The statements about the machine. -/

open Sys2Proof Sys2Proof.Machine

/-! ## Encoding -/

/-- The decoder reads back every instruction from its word, with every operand at every value. -/
def Obligations.DecodeOfEncode : Prop := ∀ i : Instr, decode (encode i) = .instr i

/-- A word that decodes to an instruction is that instruction's word: no two words decode alike. -/
def Obligations.EncodeOfDecode : Prop := ∀ (w : Word32) (i : Instr), decode w = .instr i → encode i = w

/-- Words written out in the rules decode to the instructions the rules name: 40_load_store.md R165, R182, R174;
41_atomic_coproc_load_store.md R200, R213, R221; 42_alu.md R232, R245; 43_shift.md R271; 44_muldiv.md R303;
45_jump_branch.md R345, R341; 46_misc.md R386; 47_coprocessor.md R422. -/
def Obligations.DecodesSpecWords : Prop :=
  decode 0x80880010#32 = .instr (.lb 4#5 8#5 16#16) ∧
  decode 0x88180002#32 = .instr (.lwl 0#5 24#5 2#16) ∧
  decode 0xAC880010#32 = .instr (.sw 4#5 8#5 16#16) ∧
  decode 0xC1090000#32 = .instr (.ll 8#5 9#5 0#16) ∧
  decode 0xC4820010#32 = .instr (.lwc1 4#5 2#5 16#16) ∧
  decode 0x4C850080#32 = .instr (.lwxc1 4#5 5#5 2#5) ∧
  decode 0x20880010#32 = .instr (.addi 4#5 8#5 16#16) ∧
  decode 0x00854020#32 = .instr (.add 4#5 5#5 8#5) ∧
  decode 0x00054100#32 = .instr (.sll 5#5 8#5 4#5) ∧
  decode 0x00850018#32 = .instr (.mult 4#5 5#5) ∧
  decode 0x10850003#32 = .instr (.beq 4#5 5#5 3#16) ∧
  decode 0x0320F809#32 = .instr (.jalr 25#5 31#5) ∧
  decode 0x00850030#32 = .instr (.tge 4#5 5#5 0#10) ∧
  decode 0x4A000000#32 = .instr (.cop2 1#1 0#25)

/-! ## The step -/

/-- When the bytes at `pc` decode to an instruction, the step runs it. -/
def Obligations.StepRunsDecoded : Prop :=
  ∀ (s : State) (pa : Nat) (i : Instr),
    Running s → Fetchable s pa → decode (s.instructionAt pa) = .instr i → step s = exec i s

/-- What the environment does comes before the instruction. A store by another agent changes memory of coherent type
only, and clears `LLbit` when it falls in the block of any byte of the linked location. (The queue, the place of the
block and what is of coherent type are the model's, notes 11, 41 and 42.) -/
def Obligations.EnvironmentActsFirst : Prop :=
  ∀ s : State, s.trap = none →
    (s.env = [.quiet] → step s = step { s with env := [] }) ∧
    (s.env = [.clearLink] → step s = step { s with env := [], llbit := false }) ∧
    (∀ bytes, s.env = [.clearAndStore bytes] → step s = step { s with env := [.agentStore bytes], llbit := false }) ∧
    (∀ a b l, s.env = [.agentStore [(a, b)]] → s.link = some l → a < 2 ^ s.params.psize →
      coherentCell s.params a = true →
      step s = step { s with
        env := [], mem := Memory.write s.mem a b,
        llbit := s.llbit && decide (∀ c ∈ dataCells s.params l.paddr l.size.bytes,
          c / s.params.llBlock ≠ a / s.params.llBlock) }) ∧
    (∀ a b, s.env = [.agentStore [(a, b)]] → a < 2 ^ s.params.psize → coherentCell s.params a = false →
      step s = step { s with env := [] })

/-- A run that has ended with a Trap outcome stops, or is resumed by the platform at any `pc` with `delay` None and
`LLbit` cleared. The platform may change any part of the state: of several changes of one part the last holds, and what
no change names is as before; the launch parameters stay. (The form of the resumption is the model's, notes 10 and
40.) -/
def Obligations.EndedRunStopsOrResumes : Prop :=
  ∀ (s : State) (r : TrapRecord), s.trap = some r →
    (s.env = [] → step s = .fault (.trapOutcome r)) ∧
    (∀ pc changes rest, s.env = .resume pc changes :: rest →
      Memory.wf s.mem = true → Assoc.rising s.history = true →
      ∃ t, step s = .next t ∧ t.pc = pc ∧ t.delay = .none ∧ t.llbit = false ∧ t.trap = none ∧ t.loadDelay = none ∧
        t.env = rest ∧ t.params = s.params ∧ KeepsUnaltered s t changes ∧
        ∀ before c later, changes = before ++ c :: later → (∀ d ∈ later, c.samePart s.params d = false) → c.Holds t)

/-- A nullified slot: the machine moves to `pc + 4` with `delay` None, and nothing else changes, whatever stands at
`pc` (the spec's decision D12). -/
def Obligations.NullifiedSlotSkipped : Prop :=
  ∀ s : State, s.trap = none → s.env = [] → s.delay = .nullify →
    step s = .next { s with pc := s.pc + 4#64, delay := .none }

/-- The exceptions at instruction fetch, in their order, and the refusal to fetch a byte that a store has written
(the refusal is note 24). -/
def Obligations.FetchExceptions : Prop :=
  ∀ s : State, Running s →
    (s.pc.toNat % 4 ≠ 0 → ∃ t, step s = .next t ∧ Raises s t (.addressError .fetch s.pc)) ∧
    (s.pc.toNat % 4 = 0 → ∀ e, translate s.params .fetch s.pc = .error e → ∃ t, step s = .next t ∧ Raises s t e) ∧
    (s.pc.toNat % 4 = 0 → ∀ pa type, translate s.params .fetch s.pc = .ok (pa, type) →
      (busErrorAt s.params .fetch pa = true → ∃ t, step s = .next t ∧ Raises s t (.busError .fetch)) ∧
      (busErrorAt s.params .fetch pa = false → (∃ a ∈ fetchCells pa, History.stored s.history a = true) →
        step s = .refused .fetchOfStoredByte))

/-- A word that no row selects raises Reserved Instruction (the spec's decision D10). -/
def Obligations.ReservedWordRaises : Prop :=
  ∀ (s : State) (pa : Nat), Running s → Fetchable s pa → decode (s.instructionAt pa) = .reserved →
    ∃ t, step s = .next t ∧ Raises s t .reservedInstruction

/-- A word that selects an instruction and has a non-zero required-zero bit is refused, below its level it raises
Reserved Instruction; the COP1X words outside the table are refused or reserved when unit 1 is usable (notes 20, 27
and 36). -/
def Obligations.OtherWords : Prop :=
  ∀ (s : State) (pa : Nat), Running s → Fetchable s pa →
    (∀ l, decode (s.instructionAt pa) = .requiredZero l →
      if s.supports l then step s = .refused .requiredZeroField
      else ∃ t, step s = .next t ∧ Raises s t .reservedInstruction) ∧
    (decode (s.instructionAt pa) = .cop1xArithmetic →
      if s.supports .IV = false then ∃ t, step s = .next t ∧ Raises s t .reservedInstruction
      else if unitUsable s.params 1 = false then ∃ t, step s = .next t ∧ Raises s t (.coprocessorUnusable 1)
      else step s = .refused .fpuInstruction) ∧
    (decode (s.instructionAt pa) = .cop1xReserved →
      ∃ t, step s = .next t ∧
        Raises s t (if s.supports .IV = true ∧ unitUsable s.params 1 = false then .coprocessorUnusable 1
          else .reservedInstruction))

/-! ## Checks before the rule of an instruction -/

/-- An instruction above `ArchLevel` raises Reserved Instruction instead of executing; at `ArchLevel` IV none is
(30_encoding.md R141). -/
def Obligations.LevelGate : Prop :=
  ∀ (i : Instr) (s : State),
    (s.supports i.level = false → ∃ t, exec i s = .next t ∧ Raises s t .reservedInstruction) ∧
    (s.params.archLevel = .IV → s.supports i.level = true)

/-- A jump or branch in an executed delay slot is refused (note 21). -/
def Obligations.BranchInDelaySlotRefused : Prop :=
  ∀ (i : Instr) (s : State), isBranch i = true → s.supports i.level = true →
    ((∃ target, s.delay = .taken target) ∨ s.delay = .notTaken) → exec i s = .refused .branchInDelaySlot

/-- An instruction that addresses a unit that is not enabled raises Coprocessor Unusable with the unit's number. -/
def Obligations.UnusableUnitRaises : Prop :=
  ∀ (i : Instr) (s : State) (z : Fin 4), unitOf i = some z → s.supports i.level = true →
    unitUsable s.params z = false → ∃ t, exec i s = .next t ∧ Raises s t (.coprocessorUnusable z)

/-- The operation of a usable coprocessor is refused, whatever its function (note 27). -/
def Obligations.CoprocessorOperationsRefused : Prop :=
  ∀ (s : State) (co : BitVec 1) (f : BitVec 25),
    (unitUsable s.params 0 = true → exec (.cop0 co f) s = .refused (.coprocessorOperation 0)) ∧
    (unitUsable s.params 1 = true → exec (.cop1 co f) s = .refused (.coprocessorOperation 1)) ∧
    (unitUsable s.params 2 = true → exec (.cop2 co f) s = .refused (.coprocessorOperation 2))

/-- At `ArchLevel` I a load of a general register other than 0 puts it in the load delay slot, and nothing else puts
a register there; the next instruction may not use it as a source, and LWL and LWR may merge with it only if LWL or
LWR loaded it. Any other instruction runs as if no load came before (note 25). -/
def Obligations.LoadDelaySlotRefused : Prop :=
  ∀ (i : Instr) (s t : State),
    (s.trap = none → exec i s = .next t → t.trap = none →
      t.loadDelay = if s.params.archLevel = .I then loadedBy i else none) ∧
    (∀ d, s.loadDelay = some d → d.reg ≠ 0#5 → (isBranch i = true → s.delay = .none) →
      (∀ z, unitOf i = some z → unitUsable s.params z = true) →
      d.reg ∈ sourcesOf i ∨ (mergedBy s i = some d.reg ∧ d.merge = false) → exec i s = .refused .loadDelaySlot) ∧
    (MayFollow s i → exec i { s with loadDelay := none } = .next t → t.trap = none → exec i s = .next t)

/-! ## Rules of the whole machine -/

/-- Exceptions are precise: an instruction that raises changes nothing but the record of the Trap outcome (the record
is the model's form of the outcome, note 10). -/
def Obligations.ExceptionsArePrecise : Prop :=
  ∀ (i : Instr) (s t : State), s.trap = none → exec i s = .next t → t.trap ≠ none → ∃ e, Raises s t e

/-- Integer Overflow is raised by ADD, ADDI, SUB, DADD, DADDI and DSUB only. -/
def Obligations.OnlySumsOverflow : Prop :=
  ∀ (i : Instr) (s t : State) (r : TrapRecord), s.trap = none → exec i s = .next t → t.trap = some r →
    r.exception = .integerOverflow →
    (∃ rs rt rd, i = .add rs rt rd ∨ i = .sub rs rt rd ∨ i = .dadd rs rt rd ∨ i = .dsub rs rt rd) ∨
    ∃ rs rt immediate, i = .addi rs rt immediate ∨ i = .daddi rs rt immediate

/-- The instruction after a completed one is at the target of the pending branch, or at the next word; only a jump or
branch leaves a pending branch. -/
def Obligations.PcFollowsDelay : Prop :=
  ∀ (i : Instr) (s t : State), s.trap = none → exec i s = .next t → t.trap = none →
    (∀ target, s.delay = .taken target → t.pc = target) ∧
    ((∀ target, s.delay ≠ .taken target) → t.pc = s.pc + 4#64) ∧
    (isBranch i = false → t.delay = .none)

/-- No instruction but the eight multiplies and divides, MTHI and MTLO writes `HI` or `LO`. -/
def Obligations.OnlyMulDivWriteHiLo : Prop :=
  ∀ (i : Instr) (s t : State), exec i s = .next t → writesHiLo i = false → t.hi = s.hi ∧ t.lo = s.lo

/-- No instruction but the stores changes memory or what is known of the bytes that stores have written, and no
instruction but the loads and stores changes what is remembered of accesses. -/
def Obligations.OnlyStoresChangeMemory : Prop :=
  ∀ (i : Instr) (s t : State), exec i s = .next t →
    (isStore i = false → t.mem = s.mem ∧ ∀ a, History.stored t.history a = History.stored s.history a) ∧
    (accessOf s i = none → t.history = s.history)

/-- No instruction but LL, LLD, SC and SCD changes `LLbit` or `LLaddr`; each that completes between them is followed:
whether it is a load, a store or a prefetch, and where it lies (note 18). -/
def Obligations.OnlyLinkedInstructionsChangeLink : Prop :=
  ∀ (i : Instr) (s t : State), exec i s = .next t → isLinked i = false →
    KeepsLink s t ∧ (s.trap = none → t.trap = none → Tracks s t (isAccess s i))

/-! ## Reset and the invariant -/

/-- What the spec states of reset. -/
def Obligations.ResetValues : Prop :=
  State.reset.x 0#5 = 0#64 ∧ State.reset.delay = .none ∧ State.reset.link = none ∧ State.reset.hiGuard = 0 ∧
  State.reset.loGuard = 0 ∧ State.reset.hiloFresh = false ∧ State.reset.pc.toNat % 4 = 0

/-- The state after reset satisfies the invariant. -/
def Obligations.ResetInvariant : Prop := State.reset.Inv

/-- Every step keeps the invariant: `x[0]` is zero, the guards are in 0, 1, 2, a set `LLbit` has its linked location,
memory and the record of accesses are canonical and hold physical addresses. -/
def Obligations.StepKeepsInvariant : Prop := ∀ s t : State, s.Inv → step s = .next t → t.Inv

/-- A program cannot change any launch parameter. -/
def Obligations.StepKeepsLaunchParameters : Prop := ∀ s t : State, step s = .next t → t.params = s.params

/-! ## Arithmetic, comparison and logic (42_alu.md) -/

/-- ADD, ADDI and SUB of word values: the sum or difference when it fits a word, else Integer Overflow. -/
def Obligations.WordSums : Prop :=
  ∀ (s : State) (rs rt rd : Reg) (immediate : BitVec 16), s.settled [rs, rt] = true →
    IsWordValue (s.x rs) → IsWordValue (s.x rt) →
    (∃ t, exec (.add rs rt rd) s = .next t ∧
      if -2 ^ 31 ≤ (s.x rs).toInt + (s.x rt).toInt ∧ (s.x rs).toInt + (s.x rt).toInt ≤ 2 ^ 31 - 1 then
        WritesGpr s t rd (BitVec.ofInt 64 ((s.x rs).toInt + (s.x rt).toInt)) .none
      else Raises s t .integerOverflow) ∧
    (∃ t, exec (.sub rs rt rd) s = .next t ∧
      if -2 ^ 31 ≤ (s.x rs).toInt - (s.x rt).toInt ∧ (s.x rs).toInt - (s.x rt).toInt ≤ 2 ^ 31 - 1 then
        WritesGpr s t rd (BitVec.ofInt 64 ((s.x rs).toInt - (s.x rt).toInt)) .none
      else Raises s t .integerOverflow) ∧
    (∃ t, exec (.addi rs rd immediate) s = .next t ∧
      if -2 ^ 31 ≤ (s.x rs).toInt + immediate.toInt ∧ (s.x rs).toInt + immediate.toInt ≤ 2 ^ 31 - 1 then
        WritesGpr s t rd (BitVec.ofInt 64 ((s.x rs).toInt + immediate.toInt)) .none
      else Raises s t .integerOverflow)

/-- ADDU, ADDIU and SUBU of word values: the sum or difference modulo 2^32, sign-extended; no overflow. -/
def Obligations.WordModuloSums : Prop :=
  ∀ (s : State) (rs rt rd : Reg) (immediate : BitVec 16), s.settled [rs, rt] = true →
    IsWordValue (s.x rs) → IsWordValue (s.x rt) →
    (∃ t, exec (.addu rs rt rd) s = .next t ∧
      WritesGpr s t rd (sext64 (BitVec.ofInt 32 ((s.x rs).toInt + (s.x rt).toInt))) .none) ∧
    (∃ t, exec (.subu rs rt rd) s = .next t ∧
      WritesGpr s t rd (sext64 (BitVec.ofInt 32 ((s.x rs).toInt - (s.x rt).toInt))) .none) ∧
    (∃ t, exec (.addiu rs rd immediate) s = .next t ∧
      WritesGpr s t rd (sext64 (BitVec.ofInt 32 ((s.x rs).toInt + immediate.toInt))) .none)

/-- Word instructions whose operands are no word values run on, with an undefined result; the model's choice where
the spec refuses (note 13). -/
def Obligations.NonWordOperandsRun : Prop :=
  ∀ (s : State) (rs rt rd : Reg) (immediate : BitVec 16) (sa : BitVec 5), s.settled [rs, rt] = true →
    (¬ IsWordValue (s.x rs) ∨ ¬ IsWordValue (s.x rt) →
      (∃ t, exec (.add rs rt rd) s = .next t ∧ (Raises s t .integerOverflow ∨ ∃ v, WritesGpr s t rd v .none)) ∧
      (∃ t, exec (.sub rs rt rd) s = .next t ∧ (Raises s t .integerOverflow ∨ ∃ v, WritesGpr s t rd v .none)) ∧
      (∃ t v, exec (.addu rs rt rd) s = .next t ∧ WritesGpr s t rd v .none) ∧
      (∃ t v, exec (.subu rs rt rd) s = .next t ∧ WritesGpr s t rd v .none) ∧
      (s.unguarded = true →
        (∃ t hi lo, exec (.mult rs rt) s = .next t ∧ WritesHiLo s t hi lo) ∧
        (∃ t hi lo, exec (.multu rs rt) s = .next t ∧ WritesHiLo s t hi lo) ∧
        (∃ t hi lo, exec (.div rs rt) s = .next t ∧ WritesHiLo s t hi lo) ∧
        (∃ t hi lo, exec (.divu rs rt) s = .next t ∧ WritesHiLo s t hi lo))) ∧
    (¬ IsWordValue (s.x rs) →
      (∃ t, exec (.addi rs rd immediate) s = .next t ∧
        (Raises s t .integerOverflow ∨ ∃ v, WritesGpr s t rd v .none)) ∧
      (∃ t v, exec (.addiu rs rd immediate) s = .next t ∧ WritesGpr s t rd v .none)) ∧
    (¬ IsWordValue (s.x rt) →
      (∃ t v, exec (.srl rt rd sa) s = .next t ∧ WritesGpr s t rd v .none) ∧
      (∃ t v, exec (.sra rt rd sa) s = .next t ∧ WritesGpr s t rd v .none) ∧
      (∃ t v, exec (.srlv rs rt rd) s = .next t ∧ WritesGpr s t rd v .none) ∧
      (∃ t v, exec (.srav rs rt rd) s = .next t ∧ WritesGpr s t rd v .none))

/-- DADD, DADDI and DSUB: the sum or difference when it fits 64 bits, else Integer Overflow; DADDU, DADDIU and DSUBU:
modulo 2^64; below MIPS III, Reserved Instruction. With their encodings (42_alu.md R240, R241, R249 to R252). -/
def Obligations.DoubleSums : Prop :=
  ∀ (s : State) (rs rt rd : Reg) (immediate : BitVec 16),
    (s.supports .III = true →
      (∃ t, exec (.dadd rs rt rd) s = .next t ∧
        if -2 ^ 63 ≤ (s.x rs).toInt + (s.x rt).toInt ∧ (s.x rs).toInt + (s.x rt).toInt ≤ 2 ^ 63 - 1 then
          WritesGpr s t rd (s.x rs + s.x rt) .none
        else Raises s t .integerOverflow) ∧
      (∃ t, exec (.dsub rs rt rd) s = .next t ∧
        if -2 ^ 63 ≤ (s.x rs).toInt - (s.x rt).toInt ∧ (s.x rs).toInt - (s.x rt).toInt ≤ 2 ^ 63 - 1 then
          WritesGpr s t rd (s.x rs - s.x rt) .none
        else Raises s t .integerOverflow) ∧
      (∃ t, exec (.daddi rs rt immediate) s = .next t ∧
        if -2 ^ 63 ≤ (s.x rs).toInt + immediate.toInt ∧ (s.x rs).toInt + immediate.toInt ≤ 2 ^ 63 - 1 then
          WritesGpr s t rt (s.x rs + sext64 immediate) .none
        else Raises s t .integerOverflow) ∧
      (∃ t, exec (.daddu rs rt rd) s = .next t ∧
        WritesGpr s t rd (BitVec.ofInt 64 ((s.x rs).toInt + (s.x rt).toInt)) .none) ∧
      (∃ t, exec (.dsubu rs rt rd) s = .next t ∧
        WritesGpr s t rd (BitVec.ofInt 64 ((s.x rs).toInt - (s.x rt).toInt)) .none) ∧
      (∃ t, exec (.daddiu rs rt immediate) s = .next t ∧
        WritesGpr s t rt (BitVec.ofInt 64 ((s.x rs).toInt + immediate.toInt)) .none)) ∧
    (s.supports .III = false →
      ∀ i, i = .dadd rs rt rd ∨ i = .dsub rs rt rd ∨ i = .daddi rs rt immediate ∨ i = .daddu rs rt rd ∨
        i = .dsubu rs rt rd ∨ i = .daddiu rs rt immediate →
      ∃ t, exec i s = .next t ∧ Raises s t .reservedInstruction) ∧
    decode (0b000000#6 ++ rs ++ rt ++ rd ++ 0#5 ++ 0b101100#6) = .instr (.dadd rs rt rd) ∧
    decode (0b000000#6 ++ rs ++ rt ++ rd ++ 0#5 ++ 0b101110#6) = .instr (.dsub rs rt rd) ∧
    decode (0b011000#6 ++ rs ++ rt ++ immediate) = .instr (.daddi rs rt immediate) ∧
    decode (0b000000#6 ++ rs ++ rt ++ rd ++ 0#5 ++ 0b101101#6) = .instr (.daddu rs rt rd) ∧
    decode (0b000000#6 ++ rs ++ rt ++ rd ++ 0#5 ++ 0b101111#6) = .instr (.dsubu rs rt rd) ∧
    decode (0b011001#6 ++ rs ++ rt ++ immediate) = .instr (.daddiu rs rt immediate)

/-- SLT, SLTI, SLTU and SLTIU write 1 or 0; the immediate of SLTIU is sign-extended and then compared as unsigned.
With their encodings (42_alu.md R234, R235, R253, R254). -/
def Obligations.Comparisons : Prop :=
  ∀ (s : State) (rs rt rd : Reg) (immediate : BitVec 16), s.settled [rs, rt] = true →
    (∃ t, exec (.slt rs rt rd) s = .next t ∧
      WritesGpr s t rd (if (s.x rs).toInt < (s.x rt).toInt then 1#64 else 0#64) .none) ∧
    (∃ t, exec (.slti rs rd immediate) s = .next t ∧
      WritesGpr s t rd (if (s.x rs).toInt < immediate.toInt then 1#64 else 0#64) .none) ∧
    (∃ t, exec (.sltu rs rt rd) s = .next t ∧
      WritesGpr s t rd (if (s.x rs).toNat < (s.x rt).toNat then 1#64 else 0#64) .none) ∧
    (∃ t, exec (.sltiu rs rd immediate) s = .next t ∧
      WritesGpr s t rd (if (s.x rs).toNat <
        (if immediate.toNat < 2 ^ 15 then immediate.toNat else immediate.toNat + (2 ^ 64 - 2 ^ 16))
        then 1#64 else 0#64) .none) ∧
    decode (0b000000#6 ++ rs ++ rt ++ rd ++ 0#5 ++ 0b101010#6) = .instr (.slt rs rt rd) ∧
    decode (0b001010#6 ++ rs ++ rd ++ immediate) = .instr (.slti rs rd immediate) ∧
    decode (0b000000#6 ++ rs ++ rt ++ rd ++ 0#5 ++ 0b101011#6) = .instr (.sltu rs rt rd) ∧
    decode (0b001011#6 ++ rs ++ rd ++ immediate) = .instr (.sltiu rs rd immediate)

/-- The logical instructions work bit by bit on 64 bits, with the immediate zero-extended; LUI places its immediate in
bits 31..16 and sign-extends. With their encodings (42_alu.md R236 to R239, R255 to R258). -/
def Obligations.LogicResults : Prop :=
  ∀ (s : State) (rs rt rd : Reg) (immediate : BitVec 16), s.settled [rs, rt] = true →
    (∃ t, exec (.and rs rt rd) s = .next t ∧ WritesGpr s t rd (s.x rs &&& s.x rt) .none) ∧
    (∃ t, exec (.or rs rt rd) s = .next t ∧ WritesGpr s t rd (s.x rs ||| s.x rt) .none) ∧
    (∃ t, exec (.xor rs rt rd) s = .next t ∧ WritesGpr s t rd (s.x rs ^^^ s.x rt) .none) ∧
    (∃ t, exec (.nor rs rt rd) s = .next t ∧ WritesGpr s t rd (~~~(s.x rs ||| s.x rt)) .none) ∧
    (∃ t, exec (.andi rs rd immediate) s = .next t ∧
      WritesGpr s t rd (BitVec.ofNat 64 ((s.x rs).toNat % 2 ^ 16 &&& immediate.toNat)) .none) ∧
    (∃ t, exec (.ori rs rd immediate) s = .next t ∧
      WritesGpr s t rd (BitVec.ofNat 64 ((s.x rs).toNat ||| immediate.toNat)) .none) ∧
    (∃ t, exec (.xori rs rd immediate) s = .next t ∧
      WritesGpr s t rd (BitVec.ofNat 64 ((s.x rs).toNat ^^^ immediate.toNat)) .none) ∧
    (∃ t, exec (.lui rd immediate) s = .next t ∧
      WritesGpr s t rd (BitVec.ofInt 64 (immediate.toInt * 2 ^ 16)) .none) ∧
    decode (0b000000#6 ++ rs ++ rt ++ rd ++ 0#5 ++ 0b100100#6) = .instr (.and rs rt rd) ∧
    decode (0b000000#6 ++ rs ++ rt ++ rd ++ 0#5 ++ 0b100101#6) = .instr (.or rs rt rd) ∧
    decode (0b000000#6 ++ rs ++ rt ++ rd ++ 0#5 ++ 0b100110#6) = .instr (.xor rs rt rd) ∧
    decode (0b000000#6 ++ rs ++ rt ++ rd ++ 0#5 ++ 0b100111#6) = .instr (.nor rs rt rd) ∧
    decode (0b001100#6 ++ rs ++ rd ++ immediate) = .instr (.andi rs rd immediate) ∧
    decode (0b001101#6 ++ rs ++ rd ++ immediate) = .instr (.ori rs rd immediate) ∧
    decode (0b001110#6 ++ rs ++ rd ++ immediate) = .instr (.xori rs rd immediate) ∧
    decode (0b001111#6 ++ 0#5 ++ rd ++ immediate) = .instr (.lui rd immediate)

/-! ## Shifts (43_shift.md) -/

/-- The word shifts, bit by bit: SLL and SLLV for every operand, SRL, SRLV, SRA and SRAV for a word value; the amount
is `sa` or the low five bits of `x[rs]`, and the 32-bit result is sign-extended. -/
def Obligations.WordShifts : Prop :=
  ∀ (s : State) (rs rt rd : Reg) (sa : BitVec 5), s.settled [rs, rt] = true →
    (∃ (t : State) (w : Word32), exec (.sll rt rd sa) s = .next t ∧ WritesGpr s t rd (sext64 w) .none ∧
      ∀ k < 32, w.getLsbD k = (decide (sa.toNat ≤ k) && (s.x rt).getLsbD (k - sa.toNat))) ∧
    (∃ (t : State) (w : Word32), exec (.sllv rs rt rd) s = .next t ∧ WritesGpr s t rd (sext64 w) .none ∧
      ∀ k < 32, w.getLsbD k =
        (decide ((s.x rs).toNat % 32 ≤ k) && (s.x rt).getLsbD (k - (s.x rs).toNat % 32))) ∧
    (IsWordValue (s.x rt) →
      (∃ (t : State) (w : Word32), exec (.srl rt rd sa) s = .next t ∧ WritesGpr s t rd (sext64 w) .none ∧
        ∀ k < 32, w.getLsbD k = (decide (k + sa.toNat < 32) && (s.x rt).getLsbD (k + sa.toNat))) ∧
      (∃ (t : State) (w : Word32), exec (.srlv rs rt rd) s = .next t ∧ WritesGpr s t rd (sext64 w) .none ∧
        ∀ k < 32, w.getLsbD k =
          (decide (k + (s.x rs).toNat % 32 < 32) && (s.x rt).getLsbD (k + (s.x rs).toNat % 32))) ∧
      (∃ (t : State) (w : Word32), exec (.sra rt rd sa) s = .next t ∧ WritesGpr s t rd (sext64 w) .none ∧
        ∀ k < 32, w.getLsbD k =
          if k + sa.toNat < 32 then (s.x rt).getLsbD (k + sa.toNat) else (s.x rt).getLsbD 31) ∧
      (∃ (t : State) (w : Word32), exec (.srav rs rt rd) s = .next t ∧ WritesGpr s t rd (sext64 w) .none ∧
        ∀ k < 32, w.getLsbD k =
          if k + (s.x rs).toNat % 32 < 32 then (s.x rt).getLsbD (k + (s.x rs).toNat % 32)
          else (s.x rt).getLsbD 31))

/-- The nine doubleword shifts, bit by bit; the amount is `sa`, `32 + sa`, or the low six bits of `x[rs]`;
below MIPS III, Reserved Instruction. With their encodings (43_shift.md R277 to R285). -/
def Obligations.DoubleShifts : Prop :=
  ∀ (s : State) (rs rt rd : Reg) (sa : BitVec 5),
    (s.supports .III = true →
      (∀ i n, (i = .dsll rt rd sa ∧ n = sa.toNat) ∨ (i = .dsll32 rt rd sa ∧ n = 32 + sa.toNat) ∨
          (i = .dsllv rs rt rd ∧ n = (s.x rs).toNat % 64) →
        ∃ t v, exec i s = .next t ∧ WritesGpr s t rd v .none ∧
          ∀ k < 64, v.getLsbD k = (decide (n ≤ k) && (s.x rt).getLsbD (k - n))) ∧
      (∀ i n, (i = .dsrl rt rd sa ∧ n = sa.toNat) ∨ (i = .dsrl32 rt rd sa ∧ n = 32 + sa.toNat) ∨
          (i = .dsrlv rs rt rd ∧ n = (s.x rs).toNat % 64) →
        ∃ t v, exec i s = .next t ∧ WritesGpr s t rd v .none ∧
          ∀ k < 64, v.getLsbD k = (decide (k + n < 64) && (s.x rt).getLsbD (k + n))) ∧
      (∀ i n, (i = .dsra rt rd sa ∧ n = sa.toNat) ∨ (i = .dsra32 rt rd sa ∧ n = 32 + sa.toNat) ∨
          (i = .dsrav rs rt rd ∧ n = (s.x rs).toNat % 64) →
        ∃ t v, exec i s = .next t ∧ WritesGpr s t rd v .none ∧
          ∀ k < 64, v.getLsbD k = if k + n < 64 then (s.x rt).getLsbD (k + n) else (s.x rt).getLsbD 63)) ∧
    (s.supports .III = false →
      ∀ i, i = .dsll rt rd sa ∨ i = .dsrl rt rd sa ∨ i = .dsra rt rd sa ∨ i = .dsll32 rt rd sa ∨
        i = .dsrl32 rt rd sa ∨ i = .dsra32 rt rd sa ∨ i = .dsllv rs rt rd ∨ i = .dsrlv rs rt rd ∨
        i = .dsrav rs rt rd →
      ∃ t, exec i s = .next t ∧ Raises s t .reservedInstruction) ∧
    decode (0b000000#6 ++ 0#5 ++ rt ++ rd ++ sa ++ 0b111000#6) = .instr (.dsll rt rd sa) ∧
    decode (0b000000#6 ++ 0#5 ++ rt ++ rd ++ sa ++ 0b111010#6) = .instr (.dsrl rt rd sa) ∧
    decode (0b000000#6 ++ 0#5 ++ rt ++ rd ++ sa ++ 0b111011#6) = .instr (.dsra rt rd sa) ∧
    decode (0b000000#6 ++ 0#5 ++ rt ++ rd ++ sa ++ 0b111100#6) = .instr (.dsll32 rt rd sa) ∧
    decode (0b000000#6 ++ 0#5 ++ rt ++ rd ++ sa ++ 0b111110#6) = .instr (.dsrl32 rt rd sa) ∧
    decode (0b000000#6 ++ 0#5 ++ rt ++ rd ++ sa ++ 0b111111#6) = .instr (.dsra32 rt rd sa) ∧
    decode (0b000000#6 ++ rs ++ rt ++ rd ++ 0#5 ++ 0b010100#6) = .instr (.dsllv rs rt rd) ∧
    decode (0b000000#6 ++ rs ++ rt ++ rd ++ 0#5 ++ 0b010110#6) = .instr (.dsrlv rs rt rd) ∧
    decode (0b000000#6 ++ rs ++ rt ++ rd ++ 0#5 ++ 0b010111#6) = .instr (.dsrav rs rt rd)

/-! ## Multiply, divide, HI and LO (44_muldiv.md) -/

/-- The multiplies: the halves of the exact product; MULT and MULTU take word values and sign-extend each half. -/
def Obligations.Products : Prop :=
  ∀ (s : State) (rs rt : Reg), s.unguarded = true →
    (s.settled [rs, rt] = true → IsWordValue (s.x rs) → IsWordValue (s.x rt) →
      (∃ (t : State) (hi lo : Word32), exec (.mult rs rt) s = .next t ∧ WritesHiLo s t (sext64 hi) (sext64 lo) ∧
        (hi ++ lo).toInt = (s.x rs).toInt * (s.x rt).toInt) ∧
      (∃ (t : State) (hi lo : Word32), exec (.multu rs rt) s = .next t ∧ WritesHiLo s t (sext64 hi) (sext64 lo) ∧
        (hi ++ lo).toNat = ((s.x rs).toNat % 2 ^ 32) * ((s.x rt).toNat % 2 ^ 32))) ∧
    (s.supports .III = true →
      (∃ (t : State) (hi lo : Word), exec (.dmult rs rt) s = .next t ∧ WritesHiLo s t hi lo ∧
        (hi ++ lo).toInt = (s.x rs).toInt * (s.x rt).toInt) ∧
      (∃ (t : State) (hi lo : Word), exec (.dmultu rs rt) s = .next t ∧ WritesHiLo s t hi lo ∧
        (hi ++ lo).toNat = (s.x rs).toNat * (s.x rt).toNat))

/-- The divides where the quotient is defined: the dividend is the divisor times `LO` plus `HI`, the remainder is
smaller than the divisor and, in the signed forms, is zero or has the sign of the dividend. -/
def Obligations.Quotients : Prop :=
  ∀ (s : State) (rs rt : Reg), s.unguarded = true → s.x rt ≠ 0#64 →
    (s.settled [rs, rt] = true → IsWordValue (s.x rs) → IsWordValue (s.x rt) →
      (¬ ((s.x rs).toInt = -2 ^ 31 ∧ (s.x rt).toInt = -1) →
        ∃ (t : State) (r q : Word32), exec (.div rs rt) s = .next t ∧ WritesHiLo s t (sext64 r) (sext64 q) ∧
          (s.x rs).toInt = (s.x rt).toInt * q.toInt + r.toInt ∧ r.toInt.natAbs < (s.x rt).toInt.natAbs ∧
          (r.toInt = 0 ∨ (0 < r.toInt ↔ 0 < (s.x rs).toInt))) ∧
      (∃ (t : State) (r q : Word32), exec (.divu rs rt) s = .next t ∧ WritesHiLo s t (sext64 r) (sext64 q) ∧
        (s.x rs).toNat % 2 ^ 32 = (s.x rt).toNat % 2 ^ 32 * q.toNat + r.toNat ∧
        r.toNat < (s.x rt).toNat % 2 ^ 32)) ∧
    (s.supports .III = true →
      (¬ ((s.x rs).toInt = -2 ^ 63 ∧ (s.x rt).toInt = -1) →
        ∃ (t : State) (r q : Word), exec (.ddiv rs rt) s = .next t ∧ WritesHiLo s t r q ∧
          (s.x rs).toInt = (s.x rt).toInt * q.toInt + r.toInt ∧ r.toInt.natAbs < (s.x rt).toInt.natAbs ∧
          (r.toInt = 0 ∨ (0 < r.toInt ↔ 0 < (s.x rs).toInt))) ∧
      (∃ (t : State) (r q : Word), exec (.ddivu rs rt) s = .next t ∧ WritesHiLo s t r q ∧
        (s.x rs).toNat = (s.x rt).toNat * q.toNat + r.toNat ∧ r.toNat < (s.x rt).toNat))

/-- A divide by zero, or one whose signed quotient does not fit, completes without an exception and leaves `HI` and
`LO` with some value (note 14). -/
def Obligations.OpenDivisionsComplete : Prop :=
  ∀ (s : State) (rs rt : Reg), s.settled [rs, rt] = true → s.unguarded = true →
    (s.x rt = 0#64 →
      (∃ t hi lo, exec (.div rs rt) s = .next t ∧ WritesHiLo s t hi lo) ∧
      (∃ t hi lo, exec (.divu rs rt) s = .next t ∧ WritesHiLo s t hi lo) ∧
      (s.supports .III = true →
        (∃ t hi lo, exec (.ddiv rs rt) s = .next t ∧ WritesHiLo s t hi lo) ∧
        (∃ t hi lo, exec (.ddivu rs rt) s = .next t ∧ WritesHiLo s t hi lo))) ∧
    ((s.x rs).toInt = -2 ^ 31 → (s.x rt).toInt = -1 →
      ∃ t hi lo, exec (.div rs rt) s = .next t ∧ WritesHiLo s t hi lo) ∧
    ((s.x rs).toInt = -2 ^ 63 → (s.x rt).toInt = -1 → s.supports .III = true →
      ∃ t hi lo, exec (.ddiv rs rt) s = .next t ∧ WritesHiLo s t hi lo)

/-- MFHI and MFLO read, and guard, their register; MTHI and MTLO write theirs, and the other one keeps its value
unless a multiply or divide has left an unread pair; each leaves `hiloFresh` 0 (that other register then holds a free
value (note 15)). -/
def Obligations.HiLoMoves : Prop :=
  ∀ (s : State) (r : Reg), s.settled [r] = true →
    (∃ t, exec (.mfhi r) s = .next t ∧ t.x r = (if r = 0#5 then 0#64 else s.hi) ∧ KeepsGprs s t [r] ∧
      t.hi = s.hi ∧ t.lo = s.lo ∧ t.hiloFresh = false ∧ t.hiGuard = 2 ∧ t.loGuard = s.loGuard - 1 ∧
      KeepsLink s t ∧ KeepsCops s t ∧ KeepsMemory s t [] ∧ Advances s t .none) ∧
    (∃ t, exec (.mflo r) s = .next t ∧ t.x r = (if r = 0#5 then 0#64 else s.lo) ∧ KeepsGprs s t [r] ∧
      t.hi = s.hi ∧ t.lo = s.lo ∧ t.hiloFresh = false ∧ t.hiGuard = s.hiGuard - 1 ∧ t.loGuard = 2 ∧
      KeepsLink s t ∧ KeepsCops s t ∧ KeepsMemory s t [] ∧ Advances s t .none) ∧
    (s.hiGuard = 0 →
      ∃ t, exec (.mthi r) s = .next t ∧ t.hi = s.x r ∧ (s.hiloFresh = false → t.lo = s.lo) ∧ t.hiloFresh = false ∧
        KeepsGprs s t [] ∧ CountsDown s t ∧ KeepsLink s t ∧ KeepsCops s t ∧ KeepsMemory s t [] ∧
        Advances s t .none) ∧
    (s.loGuard = 0 →
      ∃ t, exec (.mtlo r) s = .next t ∧ t.lo = s.x r ∧ (s.hiloFresh = false → t.hi = s.hi) ∧ t.hiloFresh = false ∧
        KeepsGprs s t [] ∧ CountsDown s t ∧ KeepsLink s t ∧ KeepsCops s t ∧ KeepsMemory s t [] ∧
        Advances s t .none)

/-- An instruction that would write `HI` or `LO` within two instructions of a read of it is refused (note 19). -/
def Obligations.HiLoHazardRefused : Prop :=
  ∀ (s : State) (rs rt : Reg), s.settled [rs, rt] = true →
    (0 < s.hiGuard ∨ 0 < s.loGuard →
      ∀ i, i = .mult rs rt ∨ i = .multu rs rt ∨ i = .div rs rt ∨ i = .divu rs rt ∨ i = .dmult rs rt ∨
        i = .dmultu rs rt ∨ i = .ddiv rs rt ∨ i = .ddivu rs rt →
      s.supports i.level = true → exec i s = .refused .hiLoHazard) ∧
    (0 < s.hiGuard → exec (.mthi rs) s = .refused .hiLoHazard) ∧
    (0 < s.loGuard → exec (.mtlo rs) s = .refused .hiLoHazard)

/-! ## Loads and stores (40_load_store.md) -/

/-- The aligned loads: the bytes at the address, in the byte order of loads, extended as the instruction says; a load
into `x[0]` makes its access and discards the data. The access is remembered. -/
def Obligations.AlignedLoads : Prop :=
  ∀ (s : State) (base rt : Reg) (offset : BitVec 16) (pa : Nat) (type : AccessType), s.settled [base] = true →
    (Accessible s .load (s.x base + sext64 offset) pa type (dataCells s.params pa 1) →
      (∃ t, exec (.lb base rt offset) s = .next t ∧ WritesGpr s t rt (sext64 (s.byteAt pa)) .none ∧
        Records s t type false (dataCells s.params pa 1)) ∧
      (∃ t, exec (.lbu base rt offset) s = .next t ∧ WritesGpr s t rt (zext64 (s.byteAt pa)) .none ∧
        Records s t type false (dataCells s.params pa 1))) ∧
    ((s.x base + sext64 offset).toNat % 2 = 0 →
      Accessible s .load (s.x base + sext64 offset) pa type (dataCells s.params pa 2) →
      (∃ t, exec (.lh base rt offset) s = .next t ∧ WritesGpr s t rt (sext64 (s.halfAt pa)) .none ∧
        Records s t type false (dataCells s.params pa 2)) ∧
      (∃ t, exec (.lhu base rt offset) s = .next t ∧ WritesGpr s t rt (zext64 (s.halfAt pa)) .none ∧
        Records s t type false (dataCells s.params pa 2))) ∧
    ((s.x base + sext64 offset).toNat % 4 = 0 →
      Accessible s .load (s.x base + sext64 offset) pa type (dataCells s.params pa 4) →
      (∃ t, exec (.lw base rt offset) s = .next t ∧ WritesGpr s t rt (sext64 (s.wordAt pa)) .none ∧
        Records s t type false (dataCells s.params pa 4)) ∧
      (s.supports .III = true →
        ∃ t, exec (.lwu base rt offset) s = .next t ∧ WritesGpr s t rt (zext64 (s.wordAt pa)) .none ∧
        Records s t type false (dataCells s.params pa 4))) ∧
    ((s.x base + sext64 offset).toNat % 8 = 0 → s.supports .III = true →
      Accessible s .load (s.x base + sext64 offset) pa type (dataCells s.params pa 8) →
      ∃ t, exec (.ld base rt offset) s = .next t ∧ WritesGpr s t rt (s.doubleAt pa) .none ∧
        Records s t type false (dataCells s.params pa 8))

/-- The aligned stores: the low bytes of the register, in the byte order of stores, in the cells of the access and
nowhere else; the access is remembered as a store. -/
def Obligations.AlignedStores : Prop :=
  ∀ (s : State) (base rt : Reg) (offset : BitVec 16) (pa : Nat) (type : AccessType), s.settled [base, rt] = true →
    Memory.wf s.mem = true →
    (Accessible s .store (s.x base + sext64 offset) pa type (dataCells s.params pa 1) →
      ∃ t, exec (.sb base rt offset) s = .next t ∧ WritesMemory s t type (dataCells s.params pa 1) ∧
        t.byteAt pa = (s.x rt).setWidth 8) ∧
    ((s.x base + sext64 offset).toNat % 2 = 0 →
      Accessible s .store (s.x base + sext64 offset) pa type (dataCells s.params pa 2) →
      ∃ t, exec (.sh base rt offset) s = .next t ∧ WritesMemory s t type (dataCells s.params pa 2) ∧
        t.halfAt pa = (s.x rt).setWidth 16) ∧
    ((s.x base + sext64 offset).toNat % 4 = 0 →
      Accessible s .store (s.x base + sext64 offset) pa type (dataCells s.params pa 4) →
      ∃ t, exec (.sw base rt offset) s = .next t ∧ WritesMemory s t type (dataCells s.params pa 4) ∧
        t.wordAt pa = (s.x rt).setWidth 32) ∧
    ((s.x base + sext64 offset).toNat % 8 = 0 → s.supports .III = true →
      Accessible s .store (s.x base + sext64 offset) pa type (dataCells s.params pa 8) →
      ∃ t, exec (.sd base rt offset) s = .next t ∧ WritesMemory s t type (dataCells s.params pa 8) ∧
        t.doubleAt pa = s.x rt)

/-- A load or store of an object at an address that is no multiple of its size raises Address Error with the kind of
the access and the address. -/
def Obligations.MisalignedAccessesRaise : Prop :=
  ∀ (s : State) (base rt index : Reg) (offset : BitVec 16) (v w : Word), v = s.x base + sext64 offset →
    w = s.x base + s.x index →
    (∀ i, (v.toNat % 2 ≠ 0 ∧ (i = .lh base rt offset ∨ i = .lhu base rt offset)) ∨
        (v.toNat % 4 ≠ 0 ∧ (i = .lw base rt offset ∨ i = .lwu base rt offset ∨ i = .ll base rt offset ∨
          i = .lwc1 base rt offset ∨ i = .lwc2 base rt offset)) ∨
        (v.toNat % 8 ≠ 0 ∧ (i = .ld base rt offset ∨ i = .lld base rt offset ∨ i = .ldc1 base rt offset ∨
          i = .ldc2 base rt offset)) →
      Ready s i → ∃ t, exec i s = .next t ∧ Raises s t (.addressError .load v)) ∧
    (∀ i, (v.toNat % 2 ≠ 0 ∧ i = .sh base rt offset) ∨
        (v.toNat % 4 ≠ 0 ∧ (i = .sw base rt offset ∨ i = .sc base rt offset ∨ i = .swc1 base rt offset ∨
          i = .swc2 base rt offset)) ∨
        (v.toNat % 8 ≠ 0 ∧ (i = .sd base rt offset ∨ i = .scd base rt offset ∨ i = .sdc1 base rt offset ∨
          i = .sdc2 base rt offset)) →
      Ready s i → ∃ t, exec i s = .next t ∧ Raises s t (.addressError .store v)) ∧
    (∀ i, (w.toNat % 4 ≠ 0 ∧ i = .lwxc1 base index rt) ∨ (w.toNat % 8 ≠ 0 ∧ i = .ldxc1 base index rt) →
      Ready s i → ∃ t, exec i s = .next t ∧ Raises s t (.addressError .load w)) ∧
    (∀ i, (w.toNat % 4 ≠ 0 ∧ i = .swxc1 base index rt) ∨ (w.toNat % 8 ≠ 0 ∧ i = .sdxc1 base index rt) →
      Ready s i → ∃ t, exec i s = .next t ∧ Raises s t (.addressError .store w))

/-- The exceptions and the refusal of the access of every load and store, in their order: Address Error for the
alignment, whatever the translation answers; the exception the translation answers; the refusal of a byte last
accessed with another access type (note 23); and a load's Bus Error. A conditional store makes its access when it is
certain to store. -/
def Obligations.DataAccessExceptions : Prop :=
  ∀ (i : Instr) (s : State) (a : DataAccess), accessOf s i = some a → Ready s i →
    (a.vaddr.toNat % a.align ≠ 0 → ∃ t, exec i s = .next t ∧ Raises s t (.addressError a.kind a.vaddr)) ∧
    (a.vaddr.toNat % a.align = 0 → ∀ e, translate s.params a.kind a.vaddr = .error e →
      ∃ t, exec i s = .next t ∧ Raises s t e) ∧
    (a.vaddr.toNat % a.align = 0 → ∀ pa type, translate s.params a.kind a.vaddr = .ok (pa, type) →
      (isLinked i = true → type ≠ .uncached) →
      (∀ size, conditionalSize i = some size → ∃ l, Guaranteed s a.vaddr size l) →
      ((∃ c ∈ a.cells pa, ∃ n, Assoc.find s.history c = some n ∧ n.type ≠ type) →
        exec i s = .refused .mixedAccessTypes) ∧
      ((∀ c ∈ a.cells pa, ∀ n, Assoc.find s.history c = some n → n.type = type) →
        busErrorAt s.params a.kind pa = true → ∃ t, exec i s = .next t ∧ Raises s t (.busError a.kind)))

/-- LWL and LWR, byte by byte, in both byte orders: `k` is the offset of the address in its aligned word. LWL
sign-extends; LWR does when it has loaded bit 31, and otherwise bits 63..32 are its extension or unchanged (the
choice is free (note 17)). -/
def Obligations.UnalignedWordLoads : Prop :=
  ∀ (s : State) (base rt : Reg) (offset : BitVec 16) (pa k : Nat) (type : AccessType),
    k = (s.x base + sext64 offset).toNat % 4 → 3 ≤ s.params.psize →
    (MayFollow s (.lwl base rt offset) → Accessible s .load (s.x base + sext64 offset) pa type
        (selectedCells s.params .left (s.x base + sext64 offset) pa 4) →
      ∃ (t : State) (w : Word32), exec (.lwl base rt offset) s = .next t ∧ WritesGpr s t rt (sext64 w) .none ∧
        Records s t type false (selectedCells s.params .left (s.x base + sext64 offset) pa 4) ∧
        ∀ j < 4, w.extractLsb' (8 * j) 8 =
          if bigEndianCPU s.params then
            (if k ≤ j then s.byteAt (pa + (3 - j)) else (s.x rt).extractLsb' (8 * j) 8)
          else (if 3 - k ≤ j then s.byteAt (pa - (3 - j)) else (s.x rt).extractLsb' (8 * j) 8)) ∧
    (MayFollow s (.lwr base rt offset) → Accessible s .load (s.x base + sext64 offset) pa type
        (selectedCells s.params .right (s.x base + sext64 offset) pa 4) →
      ∃ t v, exec (.lwr base rt offset) s = .next t ∧ WritesGpr s t rt v .none ∧
        Records s t type false (selectedCells s.params .right (s.x base + sext64 offset) pa 4) ∧
        (v = sext64 (low32 v) ∨
          (k ≠ (if bigEndianCPU s.params then 3 else 0) ∧ v.extractLsb' 32 32 = (s.x rt).extractLsb' 32 32)) ∧
        ∀ j < 4, v.extractLsb' (8 * j) 8 =
          if bigEndianCPU s.params then
            (if j ≤ k then s.byteAt (pa - j) else (s.x rt).extractLsb' (8 * j) 8)
          else (if j ≤ 3 - k then s.byteAt (pa + j) else (s.x rt).extractLsb' (8 * j) 8))

/-- LDL and LDR, byte by byte. -/
def Obligations.UnalignedDoubleLoads : Prop :=
  ∀ (s : State) (base rt : Reg) (offset : BitVec 16) (pa k : Nat) (type : AccessType),
    s.supports .III = true → k = (s.x base + sext64 offset).toNat % 8 → 3 ≤ s.params.psize →
    (Accessible s .load (s.x base + sext64 offset) pa type
        (selectedCells s.params .left (s.x base + sext64 offset) pa 8) →
      ∃ t v, exec (.ldl base rt offset) s = .next t ∧ WritesGpr s t rt v .none ∧
        Records s t type false (selectedCells s.params .left (s.x base + sext64 offset) pa 8) ∧
        ∀ j < 8, v.extractLsb' (8 * j) 8 =
          if bigEndianCPU s.params then
            (if k ≤ j then s.byteAt (pa + (7 - j)) else (s.x rt).extractLsb' (8 * j) 8)
          else (if 7 - k ≤ j then s.byteAt (pa - (7 - j)) else (s.x rt).extractLsb' (8 * j) 8)) ∧
    (Accessible s .load (s.x base + sext64 offset) pa type
        (selectedCells s.params .right (s.x base + sext64 offset) pa 8) →
      ∃ t v, exec (.ldr base rt offset) s = .next t ∧ WritesGpr s t rt v .none ∧
        Records s t type false (selectedCells s.params .right (s.x base + sext64 offset) pa 8) ∧
        ∀ j < 8, v.extractLsb' (8 * j) 8 =
          if bigEndianCPU s.params then
            (if j ≤ k then s.byteAt (pa - j) else (s.x rt).extractLsb' (8 * j) 8)
          else (if j ≤ 7 - k then s.byteAt (pa + j) else (s.x rt).extractLsb' (8 * j) 8))

/-- SWL, SWR, SDL and SDR, byte by byte: they store the selected bytes of the register, and only those; `n` is 4 or
8. -/
def Obligations.UnalignedStores : Prop :=
  ∀ (s : State) (base rt : Reg) (offset : BitVec 16) (pa n k : Nat) (type : AccessType),
    s.settled [base, rt] = true → Memory.wf s.mem = true → 3 ≤ s.params.psize →
    k = (s.x base + sext64 offset).toNat % n →
    (∀ i, (i = .swl base rt offset ∧ n = 4) ∨ (i = .sdl base rt offset ∧ n = 8) → s.supports i.level = true →
      Accessible s .store (s.x base + sext64 offset) pa type
        (selectedCells s.params .left (s.x base + sext64 offset) pa n) →
      ∃ t, exec i s = .next t ∧
        WritesMemory s t type (selectedCells s.params .left (s.x base + sext64 offset) pa n) ∧
        ∀ j < n, if bigEndianCPU s.params then
            (k ≤ j → t.byteAt (pa + (n - 1 - j)) = (s.x rt).extractLsb' (8 * j) 8)
          else (n - 1 - k ≤ j → t.byteAt (pa - (n - 1 - j)) = (s.x rt).extractLsb' (8 * j) 8)) ∧
    (∀ i, (i = .swr base rt offset ∧ n = 4) ∨ (i = .sdr base rt offset ∧ n = 8) → s.supports i.level = true →
      Accessible s .store (s.x base + sext64 offset) pa type
        (selectedCells s.params .right (s.x base + sext64 offset) pa n) →
      ∃ t, exec i s = .next t ∧
        WritesMemory s t type (selectedCells s.params .right (s.x base + sext64 offset) pa n) ∧
        ∀ j < n, if bigEndianCPU s.params then
            (j ≤ k → t.byteAt (pa - j) = (s.x rt).extractLsb' (8 * j) 8)
          else (j ≤ n - 1 - k → t.byteAt (pa + j) = (s.x rt).extractLsb' (8 * j) 8))

/-- The pair loads an unaligned word: big-endian, LWL at the address of its first byte and then LWR three bytes on;
little-endian, LWL three bytes on and then LWR. The word is sign-extended, and nothing of the old register is left. -/
def Obligations.UnalignedWordPair : Prop :=
  ∀ (s t u : State) (base rt : Reg) (offset : BitVec 16) (pa : Nat) (type type' : AccessType),
    s.trap = none → base ≠ rt → rt ≠ 0#5 → 3 ≤ s.params.psize →
    translate s.params .load (s.x base + sext64 offset) = .ok (pa, type) →
    translate s.params .load (s.x base + sext64 (offset + 3#16)) = .ok (pa + 3, type') →
    t.trap = none → u.trap = none →
    (if bigEndianCPU s.params then
      exec (.lwl base rt offset) s = .next t ∧ exec (.lwr base rt (offset + 3#16)) t = .next u
    else exec (.lwl base rt (offset + 3#16)) s = .next t ∧ exec (.lwr base rt offset) t = .next u) →
    u.x rt = sext64 (if bigEndianCPU s.params then
      s.byteAt pa ++ s.byteAt (pa + 1) ++ s.byteAt (pa + 2) ++ s.byteAt (pa + 3)
      else s.byteAt (pa + 3) ++ s.byteAt (pa + 2) ++ s.byteAt (pa + 1) ++ s.byteAt pa)

/-! ## Atomic update (41_atomic_coproc_load_store.md section 1) -/

/-- LL and LLD load, set `LLbit` and record the address and size in `LLaddr`; the sequence begins with
them (note 18). -/
def Obligations.LinkedLoads : Prop :=
  ∀ (s : State) (base rt : Reg) (offset : BitVec 16) (pa : Nat) (type : AccessType), type ≠ .uncached →
    ((s.x base + sext64 offset).toNat % 4 = 0 → s.supports .II = true →
      Accessible s .load (s.x base + sext64 offset) pa type (dataCells s.params pa 4) →
      ∃ t, exec (.ll base rt offset) s = .next t ∧
        t.x rt = (if rt = 0#5 then 0#64 else sext64 (s.wordAt pa)) ∧ t.llbit = true ∧
        t.link = some ⟨s.x base + sext64 offset, .word, pa, false, s.pc, s.pc⟩ ∧
        Records s t type false (dataCells s.params pa 4) ∧
        KeepsGprs s t [rt] ∧ KeepsHiLo s t ∧ CountsDown s t ∧ KeepsCops s t ∧ KeepsMemory s t [] ∧
        Advances s t .none) ∧
    ((s.x base + sext64 offset).toNat % 8 = 0 → s.supports .III = true →
      Accessible s .load (s.x base + sext64 offset) pa type (dataCells s.params pa 8) →
      ∃ t, exec (.lld base rt offset) s = .next t ∧
        t.x rt = (if rt = 0#5 then 0#64 else s.doubleAt pa) ∧ t.llbit = true ∧
        t.link = some ⟨s.x base + sext64 offset, .double, pa, false, s.pc, s.pc⟩ ∧
        Records s t type false (dataCells s.params pa 8) ∧
        KeepsGprs s t [rt] ∧ KeepsHiLo s t ∧ CountsDown s t ∧ KeepsCops s t ∧ KeepsMemory s t [] ∧
        Advances s t .none)

/-- SC and SCD with `LLbit` set, after their linked load with no load, store or prefetch between and inside the
window, succeed: they store, write 1, and end the sequence (elsewhere a free choice may fail them (note 18)). -/
def Obligations.ConditionalStoresSucceed : Prop :=
  ∀ (s : State) (base rt : Reg) (offset : BitVec 16) (pa : Nat) (type : AccessType) (l : Link),
    type ≠ .uncached → Memory.wf s.mem = true → Guaranteed s (s.x base + sext64 offset) l.size l →
    (l.size = .word → (s.x base + sext64 offset).toNat % 4 = 0 → s.supports .II = true →
      Accessible s .store (s.x base + sext64 offset) pa type (dataCells s.params pa 4) →
      ∃ t, exec (.sc base rt offset) s = .next t ∧ t.x rt = (if rt = 0#5 then 0#64 else 1#64) ∧
        t.wordAt pa = (s.x rt).setWidth 32 ∧ t.llbit = false ∧ t.link = none ∧ KeepsGprs s t [rt] ∧
        KeepsHiLo s t ∧ CountsDown s t ∧ KeepsCops s t ∧ KeepsMemory s t (dataCells s.params pa 4) ∧
        Records s t type true (dataCells s.params pa 4) ∧
        Advances s t .none) ∧
    (l.size = .double → (s.x base + sext64 offset).toNat % 8 = 0 → s.supports .III = true →
      Accessible s .store (s.x base + sext64 offset) pa type (dataCells s.params pa 8) →
      ∃ t, exec (.scd base rt offset) s = .next t ∧ t.x rt = (if rt = 0#5 then 0#64 else 1#64) ∧
        t.doubleAt pa = s.x rt ∧ t.llbit = false ∧ t.link = none ∧ KeepsGprs s t [rt] ∧
        KeepsHiLo s t ∧ CountsDown s t ∧ KeepsCops s t ∧ KeepsMemory s t (dataCells s.params pa 8) ∧
        Records s t type true (dataCells s.params pa 8) ∧
        Advances s t .none)

/-- SC and SCD with `LLbit` clear fail: they write 0, leave memory unchanged, and end the sequence. -/
def Obligations.ConditionalStoresFail : Prop :=
  ∀ (s : State) (base rt : Reg) (offset : BitVec 16) (pa : Nat) (type : AccessType) (l : Link) (i : Instr),
    type ≠ .uncached → translate s.params .store (s.x base + sext64 offset) = .ok (pa, type) →
    s.link = some l → l.vaddr = s.x base + sext64 offset → s.llbit = false →
    s.supports i.level = true →
    (i = .sc base rt offset ∧ l.size = .word ∧ l.vaddr.toNat % 4 = 0) ∨
      (i = .scd base rt offset ∧ l.size = .double ∧ l.vaddr.toNat % 8 = 0) →
    ∃ t, exec i s = .next t ∧ t.x rt = 0#64 ∧ t.llbit = false ∧ t.link = none ∧ KeepsGprs s t [rt] ∧
      KeepsHiLo s t ∧ CountsDown s t ∧ KeepsCops s t ∧ KeepsMemory s t [] ∧ t.history = s.history ∧
      Advances s t .none

/-- SC and SCD without their linked load, or to another address or of another size, are refused; so is each of the
four to an uncached location. -/
def Obligations.LinkedAccessesRefused : Prop :=
  ∀ (s : State) (base rt : Reg) (offset : BitVec 16) (v : Word), v = s.x base + sext64 offset →
    (∀ i size pa type, (i = .sc base rt offset ∧ size = .word) ∨ (i = .scd base rt offset ∧ size = .double) →
      s.supports i.level = true → v.toNat % size.bytes = 0 → translate s.params .store v = .ok (pa, type) →
      (type ≠ .uncached → (∀ l, s.link = some l → l.vaddr ≠ v ∨ l.size ≠ size) →
        exec i s = .refused .conditionalStoreWithoutLink) ∧
      (type = .uncached → exec i s = .refused .linkedAccessUncached)) ∧
    (∀ i n pa, (i = .ll base rt offset ∧ n = 4) ∨ (i = .lld base rt offset ∧ n = 8) →
      s.supports i.level = true → v.toNat % n = 0 → translate s.params .load v = .ok (pa, .uncached) →
      exec i s = .refused .linkedAccessUncached)

/-! ## Coprocessor loads and stores (41_atomic_coproc_load_store.md sections 2 and 3) -/

/-- LWC1, LDC1, LWXC1 and LDXC1: the word goes to the low half of the FGR; the doubleword to a 64-bit FGR, or to an
even pair of 32-bit ones, or, for an odd register of those, leaves the pair undefined (notes 16, 20, 29). -/
def Obligations.FpuLoads : Prop :=
  ∀ (s : State) (base index ft : Reg) (offset : BitVec 16) (v : Word) (pa : Nat) (type : AccessType) (i : Instr),
    s.settled [base] = true → s.supports i.level = true → unitUsable s.params 1 = true →
    ((i = .lwc1 base ft offset ∧ v = s.x base + sext64 offset) ∨
        (i = .lwxc1 base index ft ∧ v = s.x base + s.x index ∧
          v.extractLsb' 62 2 = (s.x base).extractLsb' 62 2) →
      v.toNat % 4 = 0 → Accessible s .load v pa type (dataCells s.params pa 4) →
      ∃ t, exec i s = .next t ∧ low32 (t.fgr ft) = s.wordAt pa ∧ WritesFgrs s t [ft] ∧
        Records s t type false (dataCells s.params pa 4)) ∧
    ((i = .ldc1 base ft offset ∧ v = s.x base + sext64 offset) ∨
        (i = .ldxc1 base index ft ∧ v = s.x base + s.x index ∧
          v.extractLsb' 62 2 = (s.x base).extractLsb' 62 2) →
      v.toNat % 8 = 0 → Accessible s .load v pa type (dataCells s.params pa 8) →
      ∃ t, exec i s = .next t ∧ Records s t type false (dataCells s.params pa 8) ∧
        if s.params.statusFR then t.fgr ft = s.doubleAt pa ∧ WritesFgrs s t [ft]
        else if ft.toNat % 2 = 0 then
          low32 (t.fgr (ft + 1#5)) ++ low32 (t.fgr ft) = s.doubleAt pa ∧ WritesFgrs s t [ft, ft + 1#5]
        else WritesFgrs s t [ft - 1#5, ft])

/-- SWC1, SDC1, SWXC1 and SDXC1 store what unit 1 supplies (for an odd register of 32 bits some value; the register
layout is the model's (notes 20, 29)). -/
def Obligations.FpuStores : Prop :=
  ∀ (s : State) (base index ft : Reg) (offset : BitVec 16) (v : Word) (pa : Nat) (type : AccessType) (i : Instr),
    s.settled [base] = true → s.supports i.level = true → unitUsable s.params 1 = true → Memory.wf s.mem = true →
    ((i = .swc1 base ft offset ∧ v = s.x base + sext64 offset) ∨
        (i = .swxc1 base index ft ∧ v = s.x base + s.x index ∧
          v.extractLsb' 62 2 = (s.x base).extractLsb' 62 2) →
      v.toNat % 4 = 0 → Accessible s .store v pa type (dataCells s.params pa 4) →
      ∃ t, exec i s = .next t ∧ t.wordAt pa = low32 (s.fgr ft) ∧ WritesMemory s t type (dataCells s.params pa 4)) ∧
    ((i = .sdc1 base ft offset ∧ v = s.x base + sext64 offset) ∨
        (i = .sdxc1 base index ft ∧ v = s.x base + s.x index ∧
          v.extractLsb' 62 2 = (s.x base).extractLsb' 62 2) →
      v.toNat % 8 = 0 → Accessible s .store v pa type (dataCells s.params pa 8) →
      ∃ t, exec i s = .next t ∧ WritesMemory s t type (dataCells s.params pa 8) ∧
        (s.params.statusFR = true → t.doubleAt pa = s.fgr ft) ∧
        (s.params.statusFR = false → ft.toNat % 2 = 0 →
          t.doubleAt pa = low32 (s.fgr (ft + 1#5)) ++ low32 (s.fgr ft)))

/-- LWC2, LDC2, SWC2 and SDC2 apply the functions that are parameters of the model, and change nothing else but the
memory they store to and the record of the access (the functions are opaque, note 28). -/
def Obligations.UnitTwoTransfers : Prop :=
  ∀ (s : State) (base rt : Reg) (offset : BitVec 16) (v : Word) (pa : Nat) (type : AccessType),
    v = s.x base + sext64 offset → s.settled [base] = true → unitUsable s.params 2 = true →
    Memory.wf s.mem = true →
    (v.toNat % 4 = 0 → Accessible s .load v pa type (dataCells s.params pa 4) →
      ∃ t, exec (.lwc2 base rt offset) s = .next t ∧ t.cop2 = Config.cop2LoadWord rt (s.wordAt pa) s.cop2 ∧
        KeepsButUnitTwo s t ∧ KeepsMemory s t [] ∧ Records s t type false (dataCells s.params pa 4)) ∧
    (v.toNat % 4 = 0 → Accessible s .store v pa type (dataCells s.params pa 4) →
      ∃ t, exec (.swc2 base rt offset) s = .next t ∧ t.cop2 = (Config.cop2StoreWord rt s.cop2).1 ∧
        t.wordAt pa = (Config.cop2StoreWord rt s.cop2).2 ∧ KeepsButUnitTwo s t ∧
        KeepsMemory s t (dataCells s.params pa 4) ∧ Records s t type true (dataCells s.params pa 4)) ∧
    (v.toNat % 8 = 0 → s.supports .II = true → Accessible s .load v pa type (dataCells s.params pa 8) →
      ∃ t, exec (.ldc2 base rt offset) s = .next t ∧ t.cop2 = Config.cop2LoadDouble rt (s.doubleAt pa) s.cop2 ∧
        KeepsButUnitTwo s t ∧ KeepsMemory s t [] ∧ Records s t type false (dataCells s.params pa 8)) ∧
    (v.toNat % 8 = 0 → s.supports .II = true → Accessible s .store v pa type (dataCells s.params pa 8) →
      ∃ t, exec (.sdc2 base rt offset) s = .next t ∧ t.cop2 = (Config.cop2StoreDouble rt s.cop2).1 ∧
        t.doubleAt pa = (Config.cop2StoreDouble rt s.cop2).2 ∧ KeepsButUnitTwo s t ∧
        KeepsMemory s t (dataCells s.params pa 8) ∧ Records s t type true (dataCells s.params pa 8))

/-- An indexed load or store whose address leaves the region of its base is refused, aligned or not (note 22). -/
def Obligations.IndexedRegionRefused : Prop :=
  ∀ (s : State) (base index ft : Reg) (i : Instr), s.supports .IV = true → unitUsable s.params 1 = true →
    (s.x base + s.x index).extractLsb' 62 2 ≠ (s.x base).extractLsb' 62 2 →
    i = .lwxc1 base index ft ∨ i = .ldxc1 base index ft ∨ i = .swxc1 base index ft ∨ i = .sdxc1 base index ft →
    exec i s = .refused .regionBits

/-! ## Jumps and branches (45_jump_branch.md) -/

/-- The conditional branches that do not link: taken, to the address of the delay slot plus four times the offset;
not taken, the slot is executed, or nullified by a branch likely; below MIPS II the branches likely raise Reserved
Instruction. With their encodings (45_jump_branch.md R345 to R352, R354 to R357). -/
def Obligations.ConditionalBranches : Prop :=
  ∀ (s : State) (rs rt : Reg) (offset : BitVec 16) (target : Word), s.delay = .none → s.settled [rs, rt] = true →
    target = s.pc + 4#64 + BitVec.ofInt 64 (4 * offset.toInt) →
    (∀ (i : Instr) (c : Prop) [Decidable c],
      (i = .beq rs rt offset ∧ (c ↔ s.x rs = s.x rt)) ∨ (i = .bne rs rt offset ∧ (c ↔ s.x rs ≠ s.x rt)) ∨
      (i = .blez rs offset ∧ (c ↔ (s.x rs).toInt ≤ 0)) ∨ (i = .bgtz rs offset ∧ (c ↔ 0 < (s.x rs).toInt)) ∨
      (i = .bltz rs offset ∧ (c ↔ (s.x rs).toInt < 0)) ∨ (i = .bgez rs offset ∧ (c ↔ 0 ≤ (s.x rs).toInt)) →
      ∃ t, exec i s = .next t ∧ WritesNothing s t (if c then .taken target else .notTaken)) ∧
    (∀ (i : Instr) (c : Prop) [Decidable c], s.supports .II = true →
      (i = .beql rs rt offset ∧ (c ↔ s.x rs = s.x rt)) ∨ (i = .bnel rs rt offset ∧ (c ↔ s.x rs ≠ s.x rt)) ∨
      (i = .blezl rs offset ∧ (c ↔ (s.x rs).toInt ≤ 0)) ∨ (i = .bgtzl rs offset ∧ (c ↔ 0 < (s.x rs).toInt)) ∨
      (i = .bltzl rs offset ∧ (c ↔ (s.x rs).toInt < 0)) ∨ (i = .bgezl rs offset ∧ (c ↔ 0 ≤ (s.x rs).toInt)) →
      ∃ t, exec i s = .next t ∧ WritesNothing s t (if c then .taken target else .nullify)) ∧
    (s.supports .II = false →
      ∀ i, i = .beql rs rt offset ∨ i = .bnel rs rt offset ∨ i = .blezl rs offset ∨ i = .bgtzl rs offset ∨
        i = .bltzl rs offset ∨ i = .bgezl rs offset → ∃ t, exec i s = .next t ∧ Raises s t .reservedInstruction) ∧
    decode (0b000100#6 ++ rs ++ rt ++ offset) = .instr (.beq rs rt offset) ∧
    decode (0b000101#6 ++ rs ++ rt ++ offset) = .instr (.bne rs rt offset) ∧
    decode (0b000110#6 ++ rs ++ 0#5 ++ offset) = .instr (.blez rs offset) ∧
    decode (0b000111#6 ++ rs ++ 0#5 ++ offset) = .instr (.bgtz rs offset) ∧
    decode (0b010100#6 ++ rs ++ rt ++ offset) = .instr (.beql rs rt offset) ∧
    decode (0b010101#6 ++ rs ++ rt ++ offset) = .instr (.bnel rs rt offset) ∧
    decode (0b010110#6 ++ rs ++ 0#5 ++ offset) = .instr (.blezl rs offset) ∧
    decode (0b010111#6 ++ rs ++ 0#5 ++ offset) = .instr (.bgtzl rs offset) ∧
    decode (0b000001#6 ++ rs ++ 0b00000#5 ++ offset) = .instr (.bltz rs offset) ∧
    decode (0b000001#6 ++ rs ++ 0b00001#5 ++ offset) = .instr (.bgez rs offset) ∧
    decode (0b000001#6 ++ rs ++ 0b00010#5 ++ offset) = .instr (.bltzl rs offset) ∧
    decode (0b000001#6 ++ rs ++ 0b00011#5 ++ offset) = .instr (.bgezl rs offset)

/-- The link branches write the return link, `pc + 8`, in GPR 31 whether or not they are taken; those that test GPR
31 are refused (the refusal is note 20). -/
def Obligations.LinkBranches : Prop :=
  ∀ (s : State) (rs : Reg) (offset : BitVec 16) (target : Word), s.delay = .none → s.settled [rs] = true →
    target = s.pc + 4#64 + BitVec.ofInt 64 (4 * offset.toInt) →
    (rs ≠ 31#5 →
      (∃ t, exec (.bltzal rs offset) s = .next t ∧
        WritesGpr s t 31#5 (s.pc + 8#64) (if (s.x rs).toInt < 0 then .taken target else .notTaken)) ∧
      (∃ t, exec (.bgezal rs offset) s = .next t ∧
        WritesGpr s t 31#5 (s.pc + 8#64) (if 0 ≤ (s.x rs).toInt then .taken target else .notTaken)) ∧
      (s.supports .II = true → ∃ t, exec (.bltzall rs offset) s = .next t ∧
        WritesGpr s t 31#5 (s.pc + 8#64) (if (s.x rs).toInt < 0 then .taken target else .nullify)) ∧
      (s.supports .II = true → ∃ t, exec (.bgezall rs offset) s = .next t ∧
        WritesGpr s t 31#5 (s.pc + 8#64) (if 0 ≤ (s.x rs).toInt then .taken target else .nullify))) ∧
    (rs = 31#5 →
      exec (.bltzal rs offset) s = .refused .linkSourceIs31 ∧
      exec (.bgezal rs offset) s = .refused .linkSourceIs31 ∧
      (s.supports .II = true →
        exec (.bltzall rs offset) s = .refused .linkSourceIs31 ∧
        exec (.bgezall rs offset) s = .refused .linkSourceIs31))

/-- J and JAL jump within the 256-megabyte region of the delay slot; JR and JALR to the whole register; JAL and JALR
write the return link; JALR into its own source is refused (the refusal is note 20). -/
def Obligations.Jumps : Prop :=
  ∀ (s : State) (rs rd : Reg) (index : BitVec 26) (target : Word), s.delay = .none → s.settled [rs] = true →
    target.toNat = (s.pc + 4#64).toNat / 2 ^ 28 * 2 ^ 28 + 4 * index.toNat →
    (∃ t, exec (.j index) s = .next t ∧ WritesNothing s t (.taken target)) ∧
    (∃ t, exec (.jal index) s = .next t ∧ WritesGpr s t 31#5 (s.pc + 8#64) (.taken target)) ∧
    (∃ t, exec (.jr rs) s = .next t ∧ WritesNothing s t (.taken (s.x rs))) ∧
    (rs ≠ rd → ∃ t, exec (.jalr rs rd) s = .next t ∧ WritesGpr s t rd (s.pc + 8#64) (.taken (s.x rs))) ∧
    (rs = rd → exec (.jalr rs rd) s = .refused .jalrSameRegister)

/-! ## Miscellaneous instructions (46_misc.md, 47_coprocessor.md) -/

/-- SYSCALL and BREAK raise their exceptions, whatever the code. A trap instruction raises Trap when its comparison of
64-bit values holds, and otherwise does nothing; below MIPS II, Reserved Instruction. With the encodings of the trap
instructions (46_misc.md R386 to R397). -/
def Obligations.ExceptionInstructions : Prop :=
  ∀ (s : State) (rs rt : Reg) (code20 : BitVec 20) (code : BitVec 10) (immediate : BitVec 16),
    (∃ t, exec (.syscall code20) s = .next t ∧ Raises s t .systemCall) ∧
    (∃ t, exec (.brk code20) s = .next t ∧ Raises s t .breakpoint) ∧
    (s.supports .II = true → ∀ (i : Instr) (c : Prop) [Decidable c],
      (i = .tge rs rt code ∧ (c ↔ (s.x rt).toInt ≤ (s.x rs).toInt)) ∨
      (i = .tgeu rs rt code ∧ (c ↔ (s.x rt).toNat ≤ (s.x rs).toNat)) ∨
      (i = .tlt rs rt code ∧ (c ↔ (s.x rs).toInt < (s.x rt).toInt)) ∨
      (i = .tltu rs rt code ∧ (c ↔ (s.x rs).toNat < (s.x rt).toNat)) ∨
      (i = .teq rs rt code ∧ (c ↔ s.x rs = s.x rt)) ∨
      (i = .tne rs rt code ∧ (c ↔ s.x rs ≠ s.x rt)) ∨
      (i = .tgei rs immediate ∧ (c ↔ immediate.toInt ≤ (s.x rs).toInt)) ∨
      (i = .tgeiu rs immediate ∧ (c ↔ (sext64 immediate).toNat ≤ (s.x rs).toNat)) ∨
      (i = .tlti rs immediate ∧ (c ↔ (s.x rs).toInt < immediate.toInt)) ∨
      (i = .tltiu rs immediate ∧ (c ↔ (s.x rs).toNat < (sext64 immediate).toNat)) ∨
      (i = .teqi rs immediate ∧ (c ↔ (s.x rs).toInt = immediate.toInt)) ∨
      (i = .tnei rs immediate ∧ (c ↔ (s.x rs).toInt ≠ immediate.toInt)) →
      ∃ t, exec i s = .next t ∧ if c then Raises s t .trap else WritesNothing s t .none) ∧
    (s.supports .II = false →
      ∀ i, i = .tge rs rt code ∨ i = .tgeu rs rt code ∨ i = .tlt rs rt code ∨ i = .tltu rs rt code ∨
        i = .teq rs rt code ∨ i = .tne rs rt code ∨ i = .tgei rs immediate ∨ i = .tgeiu rs immediate ∨
        i = .tlti rs immediate ∨ i = .tltiu rs immediate ∨ i = .teqi rs immediate ∨ i = .tnei rs immediate →
      ∃ t, exec i s = .next t ∧ Raises s t .reservedInstruction) ∧
    decode (0b000000#6 ++ rs ++ rt ++ code ++ 0b110000#6) = .instr (.tge rs rt code) ∧
    decode (0b000000#6 ++ rs ++ rt ++ code ++ 0b110001#6) = .instr (.tgeu rs rt code) ∧
    decode (0b000000#6 ++ rs ++ rt ++ code ++ 0b110010#6) = .instr (.tlt rs rt code) ∧
    decode (0b000000#6 ++ rs ++ rt ++ code ++ 0b110011#6) = .instr (.tltu rs rt code) ∧
    decode (0b000000#6 ++ rs ++ rt ++ code ++ 0b110100#6) = .instr (.teq rs rt code) ∧
    decode (0b000000#6 ++ rs ++ rt ++ code ++ 0b110110#6) = .instr (.tne rs rt code) ∧
    decode (0b000001#6 ++ rs ++ 0b01000#5 ++ immediate) = .instr (.tgei rs immediate) ∧
    decode (0b000001#6 ++ rs ++ 0b01001#5 ++ immediate) = .instr (.tgeiu rs immediate) ∧
    decode (0b000001#6 ++ rs ++ 0b01010#5 ++ immediate) = .instr (.tlti rs immediate) ∧
    decode (0b000001#6 ++ rs ++ 0b01011#5 ++ immediate) = .instr (.tltiu rs immediate) ∧
    decode (0b000001#6 ++ rs ++ 0b01100#5 ++ immediate) = .instr (.teqi rs immediate) ∧
    decode (0b000001#6 ++ rs ++ 0b01110#5 ++ immediate) = .instr (.tnei rs immediate)

/-- SYNC with `stype` 0, and PREF and PREFX with every hint, only advance; another `stype` is refused (notes 20 and
37). -/
def Obligations.SyncAndPrefetch : Prop :=
  ∀ (s : State) (base index : Reg) (stype hint : BitVec 5) (offset : BitVec 16),
    (s.supports .II = true → stype = 0#5 → ∃ t, exec (.sync stype) s = .next t ∧ WritesNothing s t .none) ∧
    (s.supports .II = true → stype ≠ 0#5 → exec (.sync stype) s = .refused .syncStype) ∧
    (s.supports .IV = true → ∃ t, exec (.pref base hint offset) s = .next t ∧ WritesNothing s t .none) ∧
    (s.supports .IV = true → unitUsable s.params 1 = true →
      ∃ t, exec (.prefx base index hint) s = .next t ∧ WritesNothing s t .none)

/-- MOVN and MOVZ move all 64 bits when their condition on all 64 bits of `x[rt]` holds. MOVCI is refused, and with a
launch that has it, which is the model's own parameter (note 26), it moves when the condition code equals `tf`. -/
def Obligations.ConditionalMoves : Prop :=
  ∀ (s : State) (rs rt rd : Reg) (cc : BitVec 3) (tf : BitVec 1), s.supports .IV = true →
    (∃ t, exec (.movn rs rt rd) s = .next t ∧
      if s.x rt = 0#64 then WritesNothing s t .none else WritesGpr s t rd (s.x rs) .none) ∧
    (∃ t, exec (.movz rs rt rd) s = .next t ∧
      if s.x rt = 0#64 then WritesGpr s t rd (s.x rs) .none else WritesNothing s t .none) ∧
    (unitUsable s.params 1 = true → s.params.fpuMoves = false →
      exec (.movci rs cc tf rd) s = .refused .fpuInstruction) ∧
    (unitUsable s.params 1 = true → s.params.fpuMoves = true →
      ∃ t, exec (.movci rs cc tf rd) s = .next t ∧
        if (if cc = 0#3 then s.cop1.coc else s.fccHigh.getLsbD (cc.toNat - 1)) = decide (tf = 1#1) then
          WritesGpr s t rd (s.x rs) .none
        else WritesNothing s t .none)
end

