-- ==== Sys2Proof/Laws/Encoding.lean ====
section
/-! SUPPORT. Each field of each instruction layout. -/

namespace Sys2Proof

/-! ## iType -/

@[simp] theorem opcodeOf_iType (op : BitVec 6) (rs rt : Reg) (imm : BitVec 16) : opcodeOf (iType op rs rt imm) = op := by
  unfold opcodeOf iType
  ext i hi
  simp
  grind

@[simp] theorem rsOf_iType (op : BitVec 6) (rs rt : Reg) (imm : BitVec 16) : rsOf (iType op rs rt imm) = rs := by
  unfold rsOf iType
  ext i hi
  simp
  grind

@[simp] theorem rtOf_iType (op : BitVec 6) (rs rt : Reg) (imm : BitVec 16) : rtOf (iType op rs rt imm) = rt := by
  unfold rtOf iType
  ext i hi
  simp
  grind

@[simp] theorem immediateOf_iType (op : BitVec 6) (rs rt : Reg) (imm : BitVec 16) : immediateOf (iType op rs rt imm) = imm := by
  unfold immediateOf iType
  ext i hi
  simp
  grind

/-! ## jType -/

@[simp] theorem opcodeOf_jType (op : BitVec 6) (index : BitVec 26) : opcodeOf (jType op index) = op := by
  unfold opcodeOf jType
  ext i hi
  simp
  grind

@[simp] theorem indexOf_jType (op : BitVec 6) (index : BitVec 26) : indexOf (jType op index) = index := by
  unfold indexOf jType
  ext i hi
  simp
  grind

/-! ## rType -/

@[simp] theorem opcodeOf_rType (op : BitVec 6) (rs rt rd : Reg) (sa : BitVec 5) (fn : BitVec 6) : opcodeOf (rType op rs rt rd sa fn) = op := by
  unfold opcodeOf rType
  ext i hi
  simp
  grind

@[simp] theorem rsOf_rType (op : BitVec 6) (rs rt rd : Reg) (sa : BitVec 5) (fn : BitVec 6) : rsOf (rType op rs rt rd sa fn) = rs := by
  unfold rsOf rType
  ext i hi
  simp
  grind

@[simp] theorem rtOf_rType (op : BitVec 6) (rs rt rd : Reg) (sa : BitVec 5) (fn : BitVec 6) : rtOf (rType op rs rt rd sa fn) = rt := by
  unfold rtOf rType
  ext i hi
  simp
  grind

@[simp] theorem rdOf_rType (op : BitVec 6) (rs rt rd : Reg) (sa : BitVec 5) (fn : BitVec 6) : rdOf (rType op rs rt rd sa fn) = rd := by
  unfold rdOf rType
  ext i hi
  simp
  grind

@[simp] theorem saOf_rType (op : BitVec 6) (rs rt rd : Reg) (sa : BitVec 5) (fn : BitVec 6) : saOf (rType op rs rt rd sa fn) = sa := by
  unfold saOf rType
  ext i hi
  simp
  grind

@[simp] theorem functionOf_rType (op : BitVec 6) (rs rt rd : Reg) (sa : BitVec 5) (fn : BitVec 6) : functionOf (rType op rs rt rd sa fn) = fn := by
  unfold functionOf rType
  ext i hi
  simp
  grind

/-! ## codeType -/

@[simp] theorem opcodeOf_codeType (code : BitVec 20) (fn : BitVec 6) : opcodeOf (codeType code fn) = 0b000000#6 := by
  unfold opcodeOf codeType
  ext i hi
  simp
  grind

@[simp] theorem code20Of_codeType (code : BitVec 20) (fn : BitVec 6) : code20Of (codeType code fn) = code := by
  unfold code20Of codeType
  ext i hi
  simp
  grind

@[simp] theorem functionOf_codeType (code : BitVec 20) (fn : BitVec 6) : functionOf (codeType code fn) = fn := by
  unfold functionOf codeType
  ext i hi
  simp
  grind

/-! ## trapType -/

@[simp] theorem opcodeOf_trapType (rs rt : Reg) (code : BitVec 10) (fn : BitVec 6) : opcodeOf (trapType rs rt code fn) = 0b000000#6 := by
  unfold opcodeOf trapType
  ext i hi
  simp
  grind

@[simp] theorem rsOf_trapType (rs rt : Reg) (code : BitVec 10) (fn : BitVec 6) : rsOf (trapType rs rt code fn) = rs := by
  unfold rsOf trapType
  ext i hi
  simp
  grind

@[simp] theorem rtOf_trapType (rs rt : Reg) (code : BitVec 10) (fn : BitVec 6) : rtOf (trapType rs rt code fn) = rt := by
  unfold rtOf trapType
  ext i hi
  simp
  grind

@[simp] theorem code10Of_trapType (rs rt : Reg) (code : BitVec 10) (fn : BitVec 6) : code10Of (trapType rs rt code fn) = code := by
  unfold code10Of trapType
  ext i hi
  simp
  grind

@[simp] theorem functionOf_trapType (rs rt : Reg) (code : BitVec 10) (fn : BitVec 6) : functionOf (trapType rs rt code fn) = fn := by
  unfold functionOf trapType
  ext i hi
  simp
  grind

/-! ## copType -/

@[simp] theorem opcodeOf_copType (op : BitVec 6) (co : BitVec 1) (copFun : BitVec 25) : opcodeOf (copType op co copFun) = op := by
  unfold opcodeOf copType
  ext i hi
  simp
  grind

@[simp] theorem coOf_copType (op : BitVec 6) (co : BitVec 1) (copFun : BitVec 25) : coOf (copType op co copFun) = co := by
  unfold coOf copType
  ext i hi
  simp
  grind

@[simp] theorem copFunOf_copType (op : BitVec 6) (co : BitVec 1) (copFun : BitVec 25) : copFunOf (copType op co copFun) = copFun := by
  unfold copFunOf copType
  ext i hi
  simp
  grind

/-! ## movciType -/

@[simp] theorem opcodeOf_movciType (rs : Reg) (cc : BitVec 3) (tf : BitVec 1) (rd : Reg) : opcodeOf (movciType rs cc tf rd) = 0b000000#6 := by
  unfold opcodeOf movciType
  ext i hi
  interval_cases i <;> simp <;> grind

@[simp] theorem rsOf_movciType (rs : Reg) (cc : BitVec 3) (tf : BitVec 1) (rd : Reg) : rsOf (movciType rs cc tf rd) = rs := by
  unfold rsOf movciType
  ext i hi
  simp
  grind

@[simp] theorem ccOf_movciType (rs : Reg) (cc : BitVec 3) (tf : BitVec 1) (rd : Reg) : ccOf (movciType rs cc tf rd) = cc := by
  unfold ccOf movciType
  ext i hi
  simp
  grind

@[simp] theorem bit17Of_movciType (rs : Reg) (cc : BitVec 3) (tf : BitVec 1) (rd : Reg) : bit17Of (movciType rs cc tf rd) = 0#1 := by
  unfold bit17Of movciType
  ext i hi
  simp
  grind

@[simp] theorem tfOf_movciType (rs : Reg) (cc : BitVec 3) (tf : BitVec 1) (rd : Reg) : tfOf (movciType rs cc tf rd) = tf := by
  unfold tfOf movciType
  ext i hi
  simp
  grind

@[simp] theorem rdOf_movciType (rs : Reg) (cc : BitVec 3) (tf : BitVec 1) (rd : Reg) : rdOf (movciType rs cc tf rd) = rd := by
  unfold rdOf movciType
  ext i hi
  simp
  grind

@[simp] theorem saOf_movciType (rs : Reg) (cc : BitVec 3) (tf : BitVec 1) (rd : Reg) : saOf (movciType rs cc tf rd) = 0#5 := by
  unfold saOf movciType
  ext i hi
  simp
  grind

@[simp] theorem functionOf_movciType (rs : Reg) (cc : BitVec 3) (tf : BitVec 1) (rd : Reg) : functionOf (movciType rs cc tf rd) = 0b000001#6 := by
  unfold functionOf movciType
  ext i hi
  simp
  grind

end Sys2Proof
end

