-- ==== Sys2Proof/Laws/Memory.lean ====
section
/-! SUPPORT. Memory: a read after a write, the canonical form, the keys. -/

namespace Sys2Proof.Machine

/-! ## Sorted lists -/

section Sorted
variable {α : Type}

/-- What a key finds after an entry is put. -/
theorem find_put (xs : List (Nat × α)) (k : Nat) (v : α) (j : Nat) :
    Assoc.find (Assoc.put xs k v) j = if k = j then some v else Assoc.find xs j := by
  induction xs with
  | nil => rfl
  | cons x xs ih =>
    simp only [Assoc.put]
    split
    · simp [Assoc.find]
    · split
      · rename_i h; subst h
        simp only [Assoc.find]
        split <;> rfl
      · simp only [Assoc.find, ih]
        split <;> split <;> first | rfl | (exfalso; omega)

/-- Every key of a rising list after the first is above it. -/
theorem rising_cons {x : Nat × α} {xs : List (Nat × α)} :
    Assoc.rising (x :: xs) = true ↔ (∀ y ∈ xs, x.1 < y.1) ∧ Assoc.rising xs = true := by
  induction xs generalizing x with
  | nil => simp [Assoc.rising]
  | cons y ys ih =>
    obtain ⟨a, v⟩ := x
    obtain ⟨b, w⟩ := y
    simp only [Assoc.rising, Bool.and_eq_true, decide_eq_true_eq, List.mem_cons, forall_eq_or_imp]
    constructor
    · rintro ⟨h1, h2⟩
      exact ⟨⟨h1, fun z hz => Nat.lt_trans h1 ((ih.mp h2).1 z hz)⟩, h2⟩
    · rintro ⟨⟨h1, _⟩, h2⟩
      exact ⟨h1, h2⟩

theorem find_none_of_lt {xs : List (Nat × α)} {k : Nat} (h : ∀ y ∈ xs, k < y.1) : Assoc.find xs k = none := by
  induction xs with
  | nil => rfl
  | cons y ys ih =>
    have h1 := h y (by simp)
    simp only [Assoc.find]
    rw [if_neg (by omega)]
    exact ih fun z hz => h z (by simp [hz])

theorem find_remove (xs : List (Nat × α)) (k j : Nat) (h : Assoc.rising xs = true) :
    Assoc.find (Assoc.remove xs k) j = if k = j then none else Assoc.find xs j := by
  induction xs with
  | nil => simp [Assoc.remove, Assoc.find]
  | cons x xs ih =>
    obtain ⟨a, w⟩ := x
    obtain ⟨h1, h2⟩ := rising_cons.mp h
    simp only [Assoc.remove]
    split
    · rename_i h3
      subst h3
      by_cases h4 : a = j
      · subst h4; simp [find_none_of_lt h1]
      · simp [Assoc.find, h4]
    · simp only [Assoc.find, ih h2]
      by_cases h4 : a = j
      · subst h4; simp; omega
      · simp [h4]

theorem mem_put {xs : List (Nat × α)} {k : Nat} {v : α} {y : Nat × α} (h : y ∈ Assoc.put xs k v) :
    y = (k, v) ∨ y ∈ xs := by
  induction xs with
  | nil => simpa [Assoc.put] using h
  | cons x xs ih =>
    obtain ⟨a, w⟩ := x
    simp only [Assoc.put] at h
    split at h
    · simpa using h
    · split at h
      · simp only [List.mem_cons] at h ⊢; tauto
      · simp only [List.mem_cons] at h ⊢
        rcases h with h | h
        · tauto
        · rcases ih h with h | h <;> tauto

theorem mem_remove {xs : List (Nat × α)} {k : Nat} {y : Nat × α} (h : y ∈ Assoc.remove xs k) : y ∈ xs := by
  induction xs with
  | nil => simp [Assoc.remove] at h
  | cons x xs ih =>
    obtain ⟨a, w⟩ := x
    simp only [Assoc.remove] at h
    split at h
    · simp [h]
    · simp only [List.mem_cons] at h ⊢
      rcases h with h | h
      · exact .inl h
      · exact .inr (ih h)

theorem rising_put {xs : List (Nat × α)} {k : Nat} {v : α} (h : Assoc.rising xs = true) :
    Assoc.rising (Assoc.put xs k v) = true := by
  induction xs with
  | nil => rfl
  | cons x xs ih =>
    obtain ⟨a, w⟩ := x
    obtain ⟨h1, h2⟩ := rising_cons.mp h
    simp only [Assoc.put]
    split
    · rename_i h3
      exact rising_cons.mpr ⟨fun y hy => by
        rcases List.mem_cons.mp hy with rfl | hy
        · exact h3
        · exact Nat.lt_trans h3 (h1 y hy), h⟩
    · split
      · rename_i h3 h4
        subst h4
        exact rising_cons.mpr ⟨h1, h2⟩
      · refine rising_cons.mpr ⟨fun y hy => ?_, ih h2⟩
        rcases mem_put hy with rfl | hy
        · simp only; omega
        · exact h1 y hy

theorem rising_remove {xs : List (Nat × α)} {k : Nat} (h : Assoc.rising xs = true) :
    Assoc.rising (Assoc.remove xs k) = true := by
  induction xs with
  | nil => rfl
  | cons x xs ih =>
    obtain ⟨a, w⟩ := x
    obtain ⟨h1, h2⟩ := rising_cons.mp h
    simp only [Assoc.remove]
    split
    · exact h2
    · exact rising_cons.mpr ⟨fun y hy => h1 y (mem_remove hy), ih h2⟩

theorem keysBelow_put {n : Nat} {xs : List (Nat × α)} {k : Nat} {v : α} (h : keysBelow n xs = true) (hk : k < n) :
    keysBelow n (Assoc.put xs k v) = true := by
  simp only [keysBelow, List.all_eq_true, decide_eq_true_eq] at h ⊢
  intro y hy
  rcases mem_put hy with rfl | hy
  · exact hk
  · exact h y hy

theorem keysBelow_remove {n : Nat} {xs : List (Nat × α)} {k : Nat} (h : keysBelow n xs = true) :
    keysBelow n (Assoc.remove xs k) = true := by
  simp only [keysBelow, List.all_eq_true, decide_eq_true_eq] at h ⊢
  exact fun y hy => h y (mem_remove hy)

end Sorted

/-! ## Bytes -/

theorem wf_rising {m : List Host.Cell} (h : Memory.wf m = true) : Assoc.rising m = true := by
  simp only [Memory.wf, Bool.and_eq_true] at h; exact h.1

/-- A byte just written is read back; every other byte reads as before. -/
theorem read_write {m : List Host.Cell} (h : Memory.wf m = true) (a : Nat) (b : Byte) (j : Nat) :
    Memory.read (Memory.write m a b) j = if a = j then b else Memory.read m j := by
  simp only [Memory.read, Memory.write]
  split
  · rename_i hb
    rw [find_remove _ _ _ (wf_rising h)]
    by_cases hj : a = j <;> simp [hj, hb]
  · rw [find_put]
    by_cases hj : a = j <;> simp [hj]

/-- A write keeps the canonical form. -/
theorem wf_write {m : List Host.Cell} (h : Memory.wf m = true) (a : Nat) (b : Byte) :
    Memory.wf (Memory.write m a b) = true := by
  have hr := wf_rising h
  simp only [Memory.wf, Bool.and_eq_true, List.all_eq_true] at h ⊢
  simp only [Memory.write]
  split
  · exact ⟨rising_remove hr, fun y hy => h.2 y (mem_remove hy)⟩
  · rename_i hb
    refine ⟨rising_put hr, fun y hy => ?_⟩
    rcases mem_put hy with rfl | hy
    · simpa using hb
    · exact h.2 y hy

theorem wf_writeAll {cells m : List Host.Cell} (h : Memory.wf m = true) :
    Memory.wf (Memory.writeAll m cells) = true := by
  induction cells generalizing m with
  | nil => exact h
  | cons c cs ih => exact ih (wf_write h c.1 c.2)

/-- Writing cells leaves every other byte alone. -/
theorem read_writeAll_of_not_mem {cells m : List Host.Cell} (h : Memory.wf m = true) {j : Nat}
    (hj : ∀ c ∈ cells, c.1 ≠ j) : Memory.read (Memory.writeAll m cells) j = Memory.read m j := by
  induction cells generalizing m with
  | nil => rfl
  | cons c cs ih =>
    rw [show Memory.writeAll m (c :: cs) = Memory.writeAll (Memory.write m c.1 c.2) cs from rfl,
      ih (wf_write h _ _) fun d hd => hj d (by simp [hd]), read_write h, if_neg (hj c (by simp))]

/-- A cell written once is read back. -/
theorem read_writeAll_of_mem {cells m : List Host.Cell} (h : Memory.wf m = true) {c : Host.Cell} (hc : c ∈ cells)
    (hd : (cells.map Prod.fst).Nodup) : Memory.read (Memory.writeAll m cells) c.1 = c.2 := by
  induction cells generalizing m with
  | nil => simp at hc
  | cons d ds ih =>
    rw [show Memory.writeAll m (d :: ds) = Memory.writeAll (Memory.write m d.1 d.2) ds from rfl]
    simp only [List.map_cons, List.nodup_cons, List.mem_map, not_exists, not_and] at hd
    rcases List.mem_cons.mp hc with rfl | hc
    · rw [read_writeAll_of_not_mem (wf_write h _ _) fun e he => hd.1 e he, read_write h]; simp
    · exact ih (wf_write h _ _) hc hd.2

theorem keysBelow_writeAll {n : Nat} {cells m : List Host.Cell} (h : keysBelow n m = true)
    (hc : ∀ c ∈ cells, c.1 < n) : keysBelow n (Memory.writeAll m cells) = true := by
  induction cells generalizing m with
  | nil => exact h
  | cons c cs ih =>
    refine ih ?_ fun d hd => hc d (by simp [hd])
    simp only [Memory.write]
    split
    · exact keysBelow_remove h
    · exact keysBelow_put h (hc c (by simp))

/-! ## The record of accesses -/

theorem stored_put (h : List (Nat × Note)) (k : Nat) (n : Note) (a : Nat) :
    History.stored (Assoc.put h k n) a = if k = a then n.stored else History.stored h a := by
  simp only [History.stored, find_put]
  split <;> rfl

/-- What is remembered of a byte after an access: its type and that it was stored, if the access was of it. -/
theorem find_record (h : List (Nat × Note)) (type : AccessType) (store : Bool) (cells : List Nat) (a : Nat) :
    Assoc.find (History.record h type store cells) a =
      if a ∈ cells then some ⟨type, store || History.stored h a⟩ else Assoc.find h a := by
  induction cells generalizing h with
  | nil => rfl
  | cons c cs ih =>
    simp only [History.record, ih, stored_put, find_put, List.mem_cons]
    by_cases h1 : a ∈ cs <;> by_cases h2 : a = c
    · subst h2; simp [h1]
    · simp [h1, Ne.symm h2]
    · subst h2; simp [h1]
    · simp [h1, h2, Ne.symm h2]

theorem rising_record {cells : List Nat} {h : List (Nat × Note)} {type : AccessType} {store : Bool}
    (hr : Assoc.rising h = true) : Assoc.rising (History.record h type store cells) = true := by
  induction cells generalizing h with
  | nil => exact hr
  | cons c cs ih => exact ih (rising_put hr)

theorem keysBelow_record {n : Nat} {cells : List Nat} {h : List (Nat × Note)} {type : AccessType} {store : Bool}
    (hk : keysBelow n h = true) (hc : ∀ a ∈ cells, a < n) :
    keysBelow n (History.record h type store cells) = true := by
  induction cells generalizing h with
  | nil => exact hk
  | cons c cs ih => exact ih (keysBelow_put hk (hc c (by simp))) fun d hd => hc d (by simp [hd])

/-! ## The canonical form is kept by every operation on memory -/

theorem wf_writeCells {s : State} (h : Memory.wf s.mem = true) (cells : List Nat) (v : Nat) :
    Memory.wf (s.writeCells cells v).mem = true := wf_writeAll h

theorem wf_agentStore {s : State} (h : Memory.wf s.mem = true) (bytes : List Host.Cell) :
    Memory.wf (s.agentStore bytes).mem = true := wf_writeAll h

/-- A store by another agent leaves every byte that is not of coherent type (60_exceptions.md R477). -/
theorem read_agentStore_of_not_coherent {s : State} (h : Memory.wf s.mem = true) (bytes : List Host.Cell) {a : Nat}
    (ha : coherentCell s.params a = false) : Memory.read (s.agentStore bytes).mem a = Memory.read s.mem a := by
  refine read_writeAll_of_not_mem h fun c hc hca => ?_
  have hm := (List.mem_filter.1 hc).2
  simp [hca, ha] at hm

theorem wf_placeWord {s : State} (h : Memory.wf s.mem = true) (w : Word32) : Memory.wf (s.placeWord w).mem = true := by
  simp only [State.placeWord]
  split
  · exact h
  · exact wf_writeAll h

theorem wf_reset : Memory.wf State.reset.mem = true := rfl

end Sys2Proof.Machine
end

