-- ==== Sys2Proof/Laws/State.lean ====
section
/-! SUPPORT. Each field of the state after each named update, by rfl. -/

namespace Sys2Proof.Machine

/-! ## setX -/

@[simp] theorem setX_gpr (s : State) (r : Reg) (v : Word) :
    (s.setX r v).gpr = if r = 0#5 then s.gpr else s.gpr.set r.toNat v r.isLt := rfl
@[simp] theorem setX_hi (s : State) (r : Reg) (v : Word) : (s.setX r v).hi = s.hi := rfl
@[simp] theorem setX_lo (s : State) (r : Reg) (v : Word) : (s.setX r v).lo = s.lo := rfl
@[simp] theorem setX_pc (s : State) (r : Reg) (v : Word) : (s.setX r v).pc = s.pc := rfl
@[simp] theorem setX_delay (s : State) (r : Reg) (v : Word) : (s.setX r v).delay = s.delay := rfl
@[simp] theorem setX_llbit (s : State) (r : Reg) (v : Word) : (s.setX r v).llbit = s.llbit := rfl
@[simp] theorem setX_link (s : State) (r : Reg) (v : Word) : (s.setX r v).link = s.link := rfl
@[simp] theorem setX_hiGuard (s : State) (r : Reg) (v : Word) : (s.setX r v).hiGuard = s.hiGuard := rfl
@[simp] theorem setX_loGuard (s : State) (r : Reg) (v : Word) : (s.setX r v).loGuard = s.loGuard := rfl
@[simp] theorem setX_hiloFresh (s : State) (r : Reg) (v : Word) : (s.setX r v).hiloFresh = s.hiloFresh := rfl
@[simp] theorem setX_cop0 (s : State) (r : Reg) (v : Word) : (s.setX r v).cop0 = s.cop0 := rfl
@[simp] theorem setX_cop1 (s : State) (r : Reg) (v : Word) : (s.setX r v).cop1 = s.cop1 := rfl
@[simp] theorem setX_cop2 (s : State) (r : Reg) (v : Word) : (s.setX r v).cop2 = s.cop2 := rfl
@[simp] theorem setX_cop3 (s : State) (r : Reg) (v : Word) : (s.setX r v).cop3 = s.cop3 := rfl
@[simp] theorem setX_fccHigh (s : State) (r : Reg) (v : Word) : (s.setX r v).fccHigh = s.fccHigh := rfl
@[simp] theorem setX_fcsr (s : State) (r : Reg) (v : Word) : (s.setX r v).fcsr = s.fcsr := rfl
@[simp] theorem setX_mem (s : State) (r : Reg) (v : Word) : (s.setX r v).mem = s.mem := rfl
@[simp] theorem setX_history (s : State) (r : Reg) (v : Word) : (s.setX r v).history = s.history := rfl
@[simp] theorem setX_loadDelay (s : State) (r : Reg) (v : Word) : (s.setX r v).loadDelay = s.loadDelay := rfl
@[simp] theorem setX_trap (s : State) (r : Reg) (v : Word) : (s.setX r v).trap = s.trap := rfl
@[simp] theorem setX_params (s : State) (r : Reg) (v : Word) : (s.setX r v).params = s.params := rfl
@[simp] theorem setX_env (s : State) (r : Reg) (v : Word) : (s.setX r v).env = s.env := rfl
@[simp] theorem setX_ticks (s : State) (r : Reg) (v : Word) : (s.setX r v).ticks = s.ticks := rfl

/-! ## writeCells -/

@[simp] theorem writeCells_gpr (s : State) (cells : List Nat) (v : Nat) : (s.writeCells cells v).gpr = s.gpr := rfl
@[simp] theorem writeCells_hi (s : State) (cells : List Nat) (v : Nat) : (s.writeCells cells v).hi = s.hi := rfl
@[simp] theorem writeCells_lo (s : State) (cells : List Nat) (v : Nat) : (s.writeCells cells v).lo = s.lo := rfl
@[simp] theorem writeCells_pc (s : State) (cells : List Nat) (v : Nat) : (s.writeCells cells v).pc = s.pc := rfl
@[simp] theorem writeCells_delay (s : State) (cells : List Nat) (v : Nat) :
    (s.writeCells cells v).delay = s.delay := rfl
@[simp] theorem writeCells_llbit (s : State) (cells : List Nat) (v : Nat) :
    (s.writeCells cells v).llbit = s.llbit := rfl
@[simp] theorem writeCells_link (s : State) (cells : List Nat) (v : Nat) : (s.writeCells cells v).link = s.link := rfl
@[simp] theorem writeCells_hiGuard (s : State) (cells : List Nat) (v : Nat) :
    (s.writeCells cells v).hiGuard = s.hiGuard := rfl
@[simp] theorem writeCells_loGuard (s : State) (cells : List Nat) (v : Nat) :
    (s.writeCells cells v).loGuard = s.loGuard := rfl
@[simp] theorem writeCells_hiloFresh (s : State) (cells : List Nat) (v : Nat) :
    (s.writeCells cells v).hiloFresh = s.hiloFresh := rfl
@[simp] theorem writeCells_cop0 (s : State) (cells : List Nat) (v : Nat) : (s.writeCells cells v).cop0 = s.cop0 := rfl
@[simp] theorem writeCells_cop1 (s : State) (cells : List Nat) (v : Nat) : (s.writeCells cells v).cop1 = s.cop1 := rfl
@[simp] theorem writeCells_cop2 (s : State) (cells : List Nat) (v : Nat) : (s.writeCells cells v).cop2 = s.cop2 := rfl
@[simp] theorem writeCells_cop3 (s : State) (cells : List Nat) (v : Nat) : (s.writeCells cells v).cop3 = s.cop3 := rfl
@[simp] theorem writeCells_fccHigh (s : State) (cells : List Nat) (v : Nat) :
    (s.writeCells cells v).fccHigh = s.fccHigh := rfl
@[simp] theorem writeCells_fcsr (s : State) (cells : List Nat) (v : Nat) : (s.writeCells cells v).fcsr = s.fcsr := rfl
@[simp] theorem writeCells_mem (s : State) (cells : List Nat) (v : Nat) :
    (s.writeCells cells v).mem = Memory.writeAll s.mem (cells.zip (disassemble (bigEndianCPU s.params) cells.length v)) := rfl
@[simp] theorem writeCells_history (s : State) (cells : List Nat) (v : Nat) :
    (s.writeCells cells v).history = s.history := rfl
@[simp] theorem writeCells_loadDelay (s : State) (cells : List Nat) (v : Nat) :
    (s.writeCells cells v).loadDelay = s.loadDelay := rfl
@[simp] theorem writeCells_trap (s : State) (cells : List Nat) (v : Nat) : (s.writeCells cells v).trap = s.trap := rfl
@[simp] theorem writeCells_params (s : State) (cells : List Nat) (v : Nat) :
    (s.writeCells cells v).params = s.params := rfl
@[simp] theorem writeCells_env (s : State) (cells : List Nat) (v : Nat) : (s.writeCells cells v).env = s.env := rfl
@[simp] theorem writeCells_ticks (s : State) (cells : List Nat) (v : Nat) :
    (s.writeCells cells v).ticks = s.ticks := rfl

/-! ## remember -/

@[simp] theorem remember_gpr (s : State) (kind : AccessKind) (type : AccessType) (cells : List Nat) :
    (s.remember kind type cells).gpr = s.gpr := rfl
@[simp] theorem remember_hi (s : State) (kind : AccessKind) (type : AccessType) (cells : List Nat) :
    (s.remember kind type cells).hi = s.hi := rfl
@[simp] theorem remember_lo (s : State) (kind : AccessKind) (type : AccessType) (cells : List Nat) :
    (s.remember kind type cells).lo = s.lo := rfl
@[simp] theorem remember_pc (s : State) (kind : AccessKind) (type : AccessType) (cells : List Nat) :
    (s.remember kind type cells).pc = s.pc := rfl
@[simp] theorem remember_delay (s : State) (kind : AccessKind) (type : AccessType) (cells : List Nat) :
    (s.remember kind type cells).delay = s.delay := rfl
@[simp] theorem remember_llbit (s : State) (kind : AccessKind) (type : AccessType) (cells : List Nat) :
    (s.remember kind type cells).llbit = s.llbit := rfl
@[simp] theorem remember_link (s : State) (kind : AccessKind) (type : AccessType) (cells : List Nat) :
    (s.remember kind type cells).link = s.link := rfl
@[simp] theorem remember_hiGuard (s : State) (kind : AccessKind) (type : AccessType) (cells : List Nat) :
    (s.remember kind type cells).hiGuard = s.hiGuard := rfl
@[simp] theorem remember_loGuard (s : State) (kind : AccessKind) (type : AccessType) (cells : List Nat) :
    (s.remember kind type cells).loGuard = s.loGuard := rfl
@[simp] theorem remember_hiloFresh (s : State) (kind : AccessKind) (type : AccessType) (cells : List Nat) :
    (s.remember kind type cells).hiloFresh = s.hiloFresh := rfl
@[simp] theorem remember_cop0 (s : State) (kind : AccessKind) (type : AccessType) (cells : List Nat) :
    (s.remember kind type cells).cop0 = s.cop0 := rfl
@[simp] theorem remember_cop1 (s : State) (kind : AccessKind) (type : AccessType) (cells : List Nat) :
    (s.remember kind type cells).cop1 = s.cop1 := rfl
@[simp] theorem remember_cop2 (s : State) (kind : AccessKind) (type : AccessType) (cells : List Nat) :
    (s.remember kind type cells).cop2 = s.cop2 := rfl
@[simp] theorem remember_cop3 (s : State) (kind : AccessKind) (type : AccessType) (cells : List Nat) :
    (s.remember kind type cells).cop3 = s.cop3 := rfl
@[simp] theorem remember_fccHigh (s : State) (kind : AccessKind) (type : AccessType) (cells : List Nat) :
    (s.remember kind type cells).fccHigh = s.fccHigh := rfl
@[simp] theorem remember_fcsr (s : State) (kind : AccessKind) (type : AccessType) (cells : List Nat) :
    (s.remember kind type cells).fcsr = s.fcsr := rfl
@[simp] theorem remember_mem (s : State) (kind : AccessKind) (type : AccessType) (cells : List Nat) :
    (s.remember kind type cells).mem = s.mem := rfl
@[simp] theorem remember_history (s : State) (kind : AccessKind) (type : AccessType) (cells : List Nat) :
    (s.remember kind type cells).history = History.record s.history type (kind = .store) cells := rfl
@[simp] theorem remember_loadDelay (s : State) (kind : AccessKind) (type : AccessType) (cells : List Nat) :
    (s.remember kind type cells).loadDelay = s.loadDelay := rfl
@[simp] theorem remember_trap (s : State) (kind : AccessKind) (type : AccessType) (cells : List Nat) :
    (s.remember kind type cells).trap = s.trap := rfl
@[simp] theorem remember_params (s : State) (kind : AccessKind) (type : AccessType) (cells : List Nat) :
    (s.remember kind type cells).params = s.params := rfl
@[simp] theorem remember_env (s : State) (kind : AccessKind) (type : AccessType) (cells : List Nat) :
    (s.remember kind type cells).env = s.env := rfl
@[simp] theorem remember_ticks (s : State) (kind : AccessKind) (type : AccessType) (cells : List Nat) :
    (s.remember kind type cells).ticks = s.ticks := rfl

/-! ## setHiLo -/

@[simp] theorem setHiLo_gpr (s : State) (hi lo : Word) : (s.setHiLo hi lo).gpr = s.gpr := rfl
@[simp] theorem setHiLo_hi (s : State) (hi lo : Word) : (s.setHiLo hi lo).hi = hi := rfl
@[simp] theorem setHiLo_lo (s : State) (hi lo : Word) : (s.setHiLo hi lo).lo = lo := rfl
@[simp] theorem setHiLo_pc (s : State) (hi lo : Word) : (s.setHiLo hi lo).pc = s.pc := rfl
@[simp] theorem setHiLo_delay (s : State) (hi lo : Word) : (s.setHiLo hi lo).delay = s.delay := rfl
@[simp] theorem setHiLo_llbit (s : State) (hi lo : Word) : (s.setHiLo hi lo).llbit = s.llbit := rfl
@[simp] theorem setHiLo_link (s : State) (hi lo : Word) : (s.setHiLo hi lo).link = s.link := rfl
@[simp] theorem setHiLo_hiGuard (s : State) (hi lo : Word) : (s.setHiLo hi lo).hiGuard = s.hiGuard := rfl
@[simp] theorem setHiLo_loGuard (s : State) (hi lo : Word) : (s.setHiLo hi lo).loGuard = s.loGuard := rfl
@[simp] theorem setHiLo_hiloFresh (s : State) (hi lo : Word) : (s.setHiLo hi lo).hiloFresh = true := rfl
@[simp] theorem setHiLo_cop0 (s : State) (hi lo : Word) : (s.setHiLo hi lo).cop0 = s.cop0 := rfl
@[simp] theorem setHiLo_cop1 (s : State) (hi lo : Word) : (s.setHiLo hi lo).cop1 = s.cop1 := rfl
@[simp] theorem setHiLo_cop2 (s : State) (hi lo : Word) : (s.setHiLo hi lo).cop2 = s.cop2 := rfl
@[simp] theorem setHiLo_cop3 (s : State) (hi lo : Word) : (s.setHiLo hi lo).cop3 = s.cop3 := rfl
@[simp] theorem setHiLo_fccHigh (s : State) (hi lo : Word) : (s.setHiLo hi lo).fccHigh = s.fccHigh := rfl
@[simp] theorem setHiLo_fcsr (s : State) (hi lo : Word) : (s.setHiLo hi lo).fcsr = s.fcsr := rfl
@[simp] theorem setHiLo_mem (s : State) (hi lo : Word) : (s.setHiLo hi lo).mem = s.mem := rfl
@[simp] theorem setHiLo_history (s : State) (hi lo : Word) : (s.setHiLo hi lo).history = s.history := rfl
@[simp] theorem setHiLo_loadDelay (s : State) (hi lo : Word) : (s.setHiLo hi lo).loadDelay = s.loadDelay := rfl
@[simp] theorem setHiLo_trap (s : State) (hi lo : Word) : (s.setHiLo hi lo).trap = s.trap := rfl
@[simp] theorem setHiLo_params (s : State) (hi lo : Word) : (s.setHiLo hi lo).params = s.params := rfl
@[simp] theorem setHiLo_env (s : State) (hi lo : Word) : (s.setHiLo hi lo).env = s.env := rfl
@[simp] theorem setHiLo_ticks (s : State) (hi lo : Word) : (s.setHiLo hi lo).ticks = s.ticks := rfl

/-! ## staleHiLo -/

@[simp] theorem staleHiLo_gpr (s : State) : (s.staleHiLo).gpr = s.gpr := rfl
@[simp] theorem staleHiLo_hi (s : State) : (s.staleHiLo).hi = s.hi := rfl
@[simp] theorem staleHiLo_lo (s : State) : (s.staleHiLo).lo = s.lo := rfl
@[simp] theorem staleHiLo_pc (s : State) : (s.staleHiLo).pc = s.pc := rfl
@[simp] theorem staleHiLo_delay (s : State) : (s.staleHiLo).delay = s.delay := rfl
@[simp] theorem staleHiLo_llbit (s : State) : (s.staleHiLo).llbit = s.llbit := rfl
@[simp] theorem staleHiLo_link (s : State) : (s.staleHiLo).link = s.link := rfl
@[simp] theorem staleHiLo_hiGuard (s : State) : (s.staleHiLo).hiGuard = s.hiGuard := rfl
@[simp] theorem staleHiLo_loGuard (s : State) : (s.staleHiLo).loGuard = s.loGuard := rfl
@[simp] theorem staleHiLo_hiloFresh (s : State) : (s.staleHiLo).hiloFresh = false := rfl
@[simp] theorem staleHiLo_cop0 (s : State) : (s.staleHiLo).cop0 = s.cop0 := rfl
@[simp] theorem staleHiLo_cop1 (s : State) : (s.staleHiLo).cop1 = s.cop1 := rfl
@[simp] theorem staleHiLo_cop2 (s : State) : (s.staleHiLo).cop2 = s.cop2 := rfl
@[simp] theorem staleHiLo_cop3 (s : State) : (s.staleHiLo).cop3 = s.cop3 := rfl
@[simp] theorem staleHiLo_fccHigh (s : State) : (s.staleHiLo).fccHigh = s.fccHigh := rfl
@[simp] theorem staleHiLo_fcsr (s : State) : (s.staleHiLo).fcsr = s.fcsr := rfl
@[simp] theorem staleHiLo_mem (s : State) : (s.staleHiLo).mem = s.mem := rfl
@[simp] theorem staleHiLo_history (s : State) : (s.staleHiLo).history = s.history := rfl
@[simp] theorem staleHiLo_loadDelay (s : State) : (s.staleHiLo).loadDelay = s.loadDelay := rfl
@[simp] theorem staleHiLo_trap (s : State) : (s.staleHiLo).trap = s.trap := rfl
@[simp] theorem staleHiLo_params (s : State) : (s.staleHiLo).params = s.params := rfl
@[simp] theorem staleHiLo_env (s : State) : (s.staleHiLo).env = s.env := rfl
@[simp] theorem staleHiLo_ticks (s : State) : (s.staleHiLo).ticks = s.ticks := rfl

/-! ## setFgr -/

@[simp] theorem setFgr_gpr (s : State) (i : Reg) (v : Word) : (s.setFgr i v).gpr = s.gpr := rfl
@[simp] theorem setFgr_hi (s : State) (i : Reg) (v : Word) : (s.setFgr i v).hi = s.hi := rfl
@[simp] theorem setFgr_lo (s : State) (i : Reg) (v : Word) : (s.setFgr i v).lo = s.lo := rfl
@[simp] theorem setFgr_pc (s : State) (i : Reg) (v : Word) : (s.setFgr i v).pc = s.pc := rfl
@[simp] theorem setFgr_delay (s : State) (i : Reg) (v : Word) : (s.setFgr i v).delay = s.delay := rfl
@[simp] theorem setFgr_llbit (s : State) (i : Reg) (v : Word) : (s.setFgr i v).llbit = s.llbit := rfl
@[simp] theorem setFgr_link (s : State) (i : Reg) (v : Word) : (s.setFgr i v).link = s.link := rfl
@[simp] theorem setFgr_hiGuard (s : State) (i : Reg) (v : Word) : (s.setFgr i v).hiGuard = s.hiGuard := rfl
@[simp] theorem setFgr_loGuard (s : State) (i : Reg) (v : Word) : (s.setFgr i v).loGuard = s.loGuard := rfl
@[simp] theorem setFgr_hiloFresh (s : State) (i : Reg) (v : Word) : (s.setFgr i v).hiloFresh = s.hiloFresh := rfl
@[simp] theorem setFgr_cop0 (s : State) (i : Reg) (v : Word) : (s.setFgr i v).cop0 = s.cop0 := rfl
@[simp] theorem setFgr_cop1 (s : State) (i : Reg) (v : Word) : (s.setFgr i v).cop1 = writeCpr s.cop1 i v := rfl
@[simp] theorem setFgr_cop2 (s : State) (i : Reg) (v : Word) : (s.setFgr i v).cop2 = s.cop2 := rfl
@[simp] theorem setFgr_cop3 (s : State) (i : Reg) (v : Word) : (s.setFgr i v).cop3 = s.cop3 := rfl
@[simp] theorem setFgr_fccHigh (s : State) (i : Reg) (v : Word) : (s.setFgr i v).fccHigh = s.fccHigh := rfl
@[simp] theorem setFgr_fcsr (s : State) (i : Reg) (v : Word) : (s.setFgr i v).fcsr = s.fcsr := rfl
@[simp] theorem setFgr_mem (s : State) (i : Reg) (v : Word) : (s.setFgr i v).mem = s.mem := rfl
@[simp] theorem setFgr_history (s : State) (i : Reg) (v : Word) : (s.setFgr i v).history = s.history := rfl
@[simp] theorem setFgr_loadDelay (s : State) (i : Reg) (v : Word) : (s.setFgr i v).loadDelay = s.loadDelay := rfl
@[simp] theorem setFgr_trap (s : State) (i : Reg) (v : Word) : (s.setFgr i v).trap = s.trap := rfl
@[simp] theorem setFgr_params (s : State) (i : Reg) (v : Word) : (s.setFgr i v).params = s.params := rfl
@[simp] theorem setFgr_env (s : State) (i : Reg) (v : Word) : (s.setFgr i v).env = s.env := rfl
@[simp] theorem setFgr_ticks (s : State) (i : Reg) (v : Word) : (s.setFgr i v).ticks = s.ticks := rfl

/-! ## setCop2 -/

@[simp] theorem setCop2_gpr (s : State) (u : CopUnit) : (s.setCop2 u).gpr = s.gpr := rfl
@[simp] theorem setCop2_hi (s : State) (u : CopUnit) : (s.setCop2 u).hi = s.hi := rfl
@[simp] theorem setCop2_lo (s : State) (u : CopUnit) : (s.setCop2 u).lo = s.lo := rfl
@[simp] theorem setCop2_pc (s : State) (u : CopUnit) : (s.setCop2 u).pc = s.pc := rfl
@[simp] theorem setCop2_delay (s : State) (u : CopUnit) : (s.setCop2 u).delay = s.delay := rfl
@[simp] theorem setCop2_llbit (s : State) (u : CopUnit) : (s.setCop2 u).llbit = s.llbit := rfl
@[simp] theorem setCop2_link (s : State) (u : CopUnit) : (s.setCop2 u).link = s.link := rfl
@[simp] theorem setCop2_hiGuard (s : State) (u : CopUnit) : (s.setCop2 u).hiGuard = s.hiGuard := rfl
@[simp] theorem setCop2_loGuard (s : State) (u : CopUnit) : (s.setCop2 u).loGuard = s.loGuard := rfl
@[simp] theorem setCop2_hiloFresh (s : State) (u : CopUnit) : (s.setCop2 u).hiloFresh = s.hiloFresh := rfl
@[simp] theorem setCop2_cop0 (s : State) (u : CopUnit) : (s.setCop2 u).cop0 = s.cop0 := rfl
@[simp] theorem setCop2_cop1 (s : State) (u : CopUnit) : (s.setCop2 u).cop1 = s.cop1 := rfl
@[simp] theorem setCop2_cop2 (s : State) (u : CopUnit) : (s.setCop2 u).cop2 = u := rfl
@[simp] theorem setCop2_cop3 (s : State) (u : CopUnit) : (s.setCop2 u).cop3 = s.cop3 := rfl
@[simp] theorem setCop2_fccHigh (s : State) (u : CopUnit) : (s.setCop2 u).fccHigh = s.fccHigh := rfl
@[simp] theorem setCop2_fcsr (s : State) (u : CopUnit) : (s.setCop2 u).fcsr = s.fcsr := rfl
@[simp] theorem setCop2_mem (s : State) (u : CopUnit) : (s.setCop2 u).mem = s.mem := rfl
@[simp] theorem setCop2_history (s : State) (u : CopUnit) : (s.setCop2 u).history = s.history := rfl
@[simp] theorem setCop2_loadDelay (s : State) (u : CopUnit) : (s.setCop2 u).loadDelay = s.loadDelay := rfl
@[simp] theorem setCop2_trap (s : State) (u : CopUnit) : (s.setCop2 u).trap = s.trap := rfl
@[simp] theorem setCop2_params (s : State) (u : CopUnit) : (s.setCop2 u).params = s.params := rfl
@[simp] theorem setCop2_env (s : State) (u : CopUnit) : (s.setCop2 u).env = s.env := rfl
@[simp] theorem setCop2_ticks (s : State) (u : CopUnit) : (s.setCop2 u).ticks = s.ticks := rfl

/-! ## skipSlot -/

@[simp] theorem skipSlot_gpr (s : State) : (s.skipSlot).gpr = s.gpr := rfl
@[simp] theorem skipSlot_hi (s : State) : (s.skipSlot).hi = s.hi := rfl
@[simp] theorem skipSlot_lo (s : State) : (s.skipSlot).lo = s.lo := rfl
@[simp] theorem skipSlot_pc (s : State) : (s.skipSlot).pc = s.pc + 4#64 := rfl
@[simp] theorem skipSlot_delay (s : State) : (s.skipSlot).delay = .none := rfl
@[simp] theorem skipSlot_llbit (s : State) : (s.skipSlot).llbit = s.llbit := rfl
@[simp] theorem skipSlot_link (s : State) : (s.skipSlot).link = s.link := rfl
@[simp] theorem skipSlot_hiGuard (s : State) : (s.skipSlot).hiGuard = s.hiGuard := rfl
@[simp] theorem skipSlot_loGuard (s : State) : (s.skipSlot).loGuard = s.loGuard := rfl
@[simp] theorem skipSlot_hiloFresh (s : State) : (s.skipSlot).hiloFresh = s.hiloFresh := rfl
@[simp] theorem skipSlot_cop0 (s : State) : (s.skipSlot).cop0 = s.cop0 := rfl
@[simp] theorem skipSlot_cop1 (s : State) : (s.skipSlot).cop1 = s.cop1 := rfl
@[simp] theorem skipSlot_cop2 (s : State) : (s.skipSlot).cop2 = s.cop2 := rfl
@[simp] theorem skipSlot_cop3 (s : State) : (s.skipSlot).cop3 = s.cop3 := rfl
@[simp] theorem skipSlot_fccHigh (s : State) : (s.skipSlot).fccHigh = s.fccHigh := rfl
@[simp] theorem skipSlot_fcsr (s : State) : (s.skipSlot).fcsr = s.fcsr := rfl
@[simp] theorem skipSlot_mem (s : State) : (s.skipSlot).mem = s.mem := rfl
@[simp] theorem skipSlot_history (s : State) : (s.skipSlot).history = s.history := rfl
@[simp] theorem skipSlot_loadDelay (s : State) : (s.skipSlot).loadDelay = s.loadDelay := rfl
@[simp] theorem skipSlot_trap (s : State) : (s.skipSlot).trap = s.trap := rfl
@[simp] theorem skipSlot_params (s : State) : (s.skipSlot).params = s.params := rfl
@[simp] theorem skipSlot_env (s : State) : (s.skipSlot).env = s.env := rfl
@[simp] theorem skipSlot_ticks (s : State) : (s.skipSlot).ticks = s.ticks := rfl

/-! ## takeException -/

@[simp] theorem takeException_gpr (s : State) (e : Exception) : (s.takeException e).gpr = s.gpr := rfl
@[simp] theorem takeException_hi (s : State) (e : Exception) : (s.takeException e).hi = s.hi := rfl
@[simp] theorem takeException_lo (s : State) (e : Exception) : (s.takeException e).lo = s.lo := rfl
@[simp] theorem takeException_pc (s : State) (e : Exception) : (s.takeException e).pc = s.pc := rfl
@[simp] theorem takeException_delay (s : State) (e : Exception) : (s.takeException e).delay = s.delay := rfl
@[simp] theorem takeException_llbit (s : State) (e : Exception) : (s.takeException e).llbit = s.llbit := rfl
@[simp] theorem takeException_link (s : State) (e : Exception) : (s.takeException e).link = s.link := rfl
@[simp] theorem takeException_hiGuard (s : State) (e : Exception) : (s.takeException e).hiGuard = s.hiGuard := rfl
@[simp] theorem takeException_loGuard (s : State) (e : Exception) : (s.takeException e).loGuard = s.loGuard := rfl
@[simp] theorem takeException_hiloFresh (s : State) (e : Exception) :
    (s.takeException e).hiloFresh = s.hiloFresh := rfl
@[simp] theorem takeException_cop0 (s : State) (e : Exception) : (s.takeException e).cop0 = s.cop0 := rfl
@[simp] theorem takeException_cop1 (s : State) (e : Exception) : (s.takeException e).cop1 = s.cop1 := rfl
@[simp] theorem takeException_cop2 (s : State) (e : Exception) : (s.takeException e).cop2 = s.cop2 := rfl
@[simp] theorem takeException_cop3 (s : State) (e : Exception) : (s.takeException e).cop3 = s.cop3 := rfl
@[simp] theorem takeException_fccHigh (s : State) (e : Exception) : (s.takeException e).fccHigh = s.fccHigh := rfl
@[simp] theorem takeException_fcsr (s : State) (e : Exception) : (s.takeException e).fcsr = s.fcsr := rfl
@[simp] theorem takeException_mem (s : State) (e : Exception) : (s.takeException e).mem = s.mem := rfl
@[simp] theorem takeException_history (s : State) (e : Exception) : (s.takeException e).history = s.history := rfl
@[simp] theorem takeException_loadDelay (s : State) (e : Exception) :
    (s.takeException e).loadDelay = s.loadDelay := rfl
@[simp] theorem takeException_trap (s : State) (e : Exception) :
    (s.takeException e).trap = some ⟨e, s.pc, s.delay.inSlot, if s.delay.inSlot then s.pc - 4#64 else s.pc⟩ := rfl
@[simp] theorem takeException_params (s : State) (e : Exception) : (s.takeException e).params = s.params := rfl
@[simp] theorem takeException_env (s : State) (e : Exception) : (s.takeException e).env = s.env := rfl
@[simp] theorem takeException_ticks (s : State) (e : Exception) : (s.takeException e).ticks = s.ticks + 1 := rfl

/-! ## retire -/

@[simp] theorem retire_gpr (s : State) (t : Traits) (s' : State) (d : Delay) : (s.retire t s' d).gpr = s'.gpr := rfl
@[simp] theorem retire_hi (s : State) (t : Traits) (s' : State) (d : Delay) : (s.retire t s' d).hi = s'.hi := rfl
@[simp] theorem retire_lo (s : State) (t : Traits) (s' : State) (d : Delay) : (s.retire t s' d).lo = s'.lo := rfl
@[simp] theorem retire_pc (s : State) (t : Traits) (s' : State) (d : Delay) : (s.retire t s' d).pc = s.nextPc := rfl
@[simp] theorem retire_delay (s : State) (t : Traits) (s' : State) (d : Delay) : (s.retire t s' d).delay = d := rfl
@[simp] theorem retire_llbit (s : State) (t : Traits) (s' : State) (d : Delay) :
    (s.retire t s' d).llbit = s'.llbit := rfl
@[simp] theorem retire_link (s : State) (t : Traits) (s' : State) (d : Delay) :
    (s.retire t s' d).link = s'.link.map fun l => l.extend s.pc t.memory := rfl
@[simp] theorem retire_hiGuard (s : State) (t : Traits) (s' : State) (d : Delay) :
    (s.retire t s' d).hiGuard = if t.readsHi then 2 else s'.hiGuard - 1 := rfl
@[simp] theorem retire_loGuard (s : State) (t : Traits) (s' : State) (d : Delay) :
    (s.retire t s' d).loGuard = if t.readsLo then 2 else s'.loGuard - 1 := rfl
@[simp] theorem retire_hiloFresh (s : State) (t : Traits) (s' : State) (d : Delay) :
    (s.retire t s' d).hiloFresh = s'.hiloFresh := rfl
@[simp] theorem retire_cop0 (s : State) (t : Traits) (s' : State) (d : Delay) :
    (s.retire t s' d).cop0 = s'.cop0 := rfl
@[simp] theorem retire_cop1 (s : State) (t : Traits) (s' : State) (d : Delay) :
    (s.retire t s' d).cop1 = s'.cop1 := rfl
@[simp] theorem retire_cop2 (s : State) (t : Traits) (s' : State) (d : Delay) :
    (s.retire t s' d).cop2 = s'.cop2 := rfl
@[simp] theorem retire_cop3 (s : State) (t : Traits) (s' : State) (d : Delay) :
    (s.retire t s' d).cop3 = s'.cop3 := rfl
@[simp] theorem retire_fccHigh (s : State) (t : Traits) (s' : State) (d : Delay) :
    (s.retire t s' d).fccHigh = s'.fccHigh := rfl
@[simp] theorem retire_fcsr (s : State) (t : Traits) (s' : State) (d : Delay) :
    (s.retire t s' d).fcsr = s'.fcsr := rfl
@[simp] theorem retire_mem (s : State) (t : Traits) (s' : State) (d : Delay) : (s.retire t s' d).mem = s'.mem := rfl
@[simp] theorem retire_history (s : State) (t : Traits) (s' : State) (d : Delay) :
    (s.retire t s' d).history = s'.history := rfl
@[simp] theorem retire_loadDelay (s : State) (t : Traits) (s' : State) (d : Delay) :
    (s.retire t s' d).loadDelay = t.loadDelay s.params.archLevel := rfl
@[simp] theorem retire_trap (s : State) (t : Traits) (s' : State) (d : Delay) :
    (s.retire t s' d).trap = s'.trap := rfl
@[simp] theorem retire_params (s : State) (t : Traits) (s' : State) (d : Delay) :
    (s.retire t s' d).params = s'.params := rfl
@[simp] theorem retire_env (s : State) (t : Traits) (s' : State) (d : Delay) : (s.retire t s' d).env = s'.env := rfl
@[simp] theorem retire_ticks (s : State) (t : Traits) (s' : State) (d : Delay) :
    (s.retire t s' d).ticks = s.ticks + 1 := rfl

end Sys2Proof.Machine
end

