-- ==== Sys2Proof/Machine/Fpr.lean ====
section
/-! DEFINITION. The floating-point register access functions of Appendix A: SizeFGR is `wideFGR`, and ValueFPR and
StoreFPR are here (00_scope.md R3; 10_state.md R50 to R52). No instruction in scope calls the last two; they read and
write the registers of the FPU loads and stores. Which format an FPR holds is not remembered (note 43). -/

namespace Sys2Proof.Machine

/-- The formats: single, word, double, long (10_state.md R51). -/
inductive FpFormat where
  | S | W | D | L
  deriving DecidableEq, Repr

/-- The bits of a value in a format. -/
def FpFormat.width : FpFormat → Nat
  | .S => 32
  | .W => 32
  | .D => 64
  | .L => 64

/-- The FPR is not an odd register of 32-bit FGRs, for which both functions are undefined. -/
def validFpr (p : Params) (fpr : Reg) : Bool := wideFGR p || !fpr.getLsbD 0

/-- The value of an FPR in format S or W; undefined, so a free value, for an odd 32-bit FGR (R51, note 43). -/
def State.valueFprWord (s : State) (fpr : Reg) : Word32 :=
  if validFpr s.params fpr then low32 (s.fgr fpr) else low32 (s.freeWord 0)

/-- A value in format S or W placed in an FPR. Beside it stand 32 undefined bits: in the upper half of a 64-bit FGR, or
in the odd register of the pair. For an odd 32-bit FGR all is undefined: the pair holds free values (R52, note 43). -/
def State.storeFprWord (s : State) (fpr : Reg) (value : Word32) : State :=
  if wideFGR s.params then s.setFgr fpr (setLowWord (s.freeWord 0) value)
  else if fpr.getLsbD 0 then s.setPair fpr (low32 (s.freeWord 1)) (low32 (s.freeWord 0))
  else s.setPair fpr (low32 (s.freeWord 0)) value

/-- `ValueFPR(fpr, fmt)` (R51). In formats D and L it is what a doubleword store takes (41_atomic_coproc_load_store.md
R212). -/
def State.valueFpr (s : State) (fpr : Reg) (fmt : FpFormat) : BitVec fmt.width :=
  match fmt with
  | .S => s.valueFprWord fpr
  | .W => s.valueFprWord fpr
  | .D => s.copStoreDouble1 fpr
  | .L => s.copStoreDouble1 fpr

/-- `StoreFPR(fpr, fmt, value)` (R52). In formats D and L it is what a doubleword load does
(41_atomic_coproc_load_store.md R212). -/
def State.storeFpr (s : State) (fpr : Reg) (fmt : FpFormat) (value : BitVec fmt.width) : State :=
  match fmt, value with
  | .S, v => s.storeFprWord fpr v
  | .W, v => s.storeFprWord fpr v
  | .D, v => s.copLoadDouble1 fpr v
  | .L, v => s.copLoadDouble1 fpr v

end Sys2Proof.Machine
end

