-- ==== Sys2Proof/Laws/Ops.lean ====
section
/-! SUPPORT. What each shared operation can do, said once. -/

namespace Sys2Proof.Machine

/-! ## Registers -/

@[simp] theorem x_zero (s : State) : s.x 0#5 = 0#64 := rfl

/-- A register after a write of a register. -/
theorem x_setX (s : State) (r : Reg) (v : Word) (q : Reg) :
    (s.setX r v).x q = if r = q ∧ r ≠ 0#5 then v else s.x q := by
  simp only [State.x, setX_gpr]
  by_cases hq : q = 0#5
  · subst hq
    by_cases hr : r = 0#5 <;> simp [hr]
  · by_cases hr : r = 0#5
    · subst hr
      simp [hq]
    · simp only [hq, hr, if_false]
      by_cases h : r = q
      · subst h; simp [hr]
      · have h' : r.toNat ≠ q.toNat := fun e => h (BitVec.eq_of_toNat_eq e)
        simp [h, h']

@[simp] theorem x_setX_same (s : State) (r : Reg) (v : Word) (h : r ≠ 0#5) : (s.setX r v).x r = v := by
  simp [x_setX, h]

theorem x_setX_other (s : State) (r q : Reg) (v : Word) (h : r ≠ q) : (s.setX r v).x q = s.x q := by
  simp [x_setX, h]

/-- A write of `x[0]` is discarded. -/
@[simp] theorem setX_zero (s : State) (v : Word) : s.setX 0#5 v = s := by
  simp [State.setX]

@[simp] theorem setX_gpr_zero (s : State) (r : Reg) (v : Word) : (s.setX r v).gpr[0] = s.gpr[0] := by
  simp only [setX_gpr]
  split
  · rfl
  · rename_i h
    have h' : r.toNat ≠ 0 := fun e => h (BitVec.eq_of_toNat_eq (by simpa using e))
    simp [h']

@[simp] theorem retire_x (s : State) (t : Traits) (s' : State) (d : Delay) (r : Reg) :
    (s.retire t s' d).x r = s'.x r := rfl

@[simp] theorem takeException_x (s : State) (e : Exception) (r : Reg) : (s.takeException e).x r = s.x r := rfl

@[simp] theorem writeCells_x (s : State) (cells : List Nat) (v : Nat) (r : Reg) :
    (s.writeCells cells v).x r = s.x r := rfl

/-! ## Translation -/

theorem two_pow_psize {p : Params} (hp : 3 ≤ p.psize) : 2 ^ p.psize = 8 * 2 ^ (p.psize - 3) := by
  rw [show (8 : Nat) = 2 ^ 3 from rfl, ← Nat.pow_add]
  congr 1
  omega

theorem physicalAddress_lt (p : Params) (h : 3 ≤ p.psize) (base pbase : Nat) (v : Word) :
    physicalAddress p base pbase v < 2 ^ p.psize := by
  have h1 := two_pow_psize h
  have h2 := Nat.mod_lt (pbase / 8 + v.toNat / 8 - base / 8) (Nat.two_pow_pos (p.psize - 3))
  simp only [physicalAddress]
  omega

/-- Whatever address the translation answers is a physical address with the low three bits of the virtual one. -/
theorem translate_ok {p : Params} {kind : AccessKind} {v : Word} {pa : Nat} {type : AccessType}
    (h : translate p kind v = .ok (pa, type)) : ∃ base pbase, pa = physicalAddress p base pbase v := by
  simp only [translate] at h
  split at h
  · cases h
  · rename_i e _
    split at h
    · rename_i pbase _ _
      exact ⟨e.base, pbase, by simpa using (congrArg Prod.fst (Except.ok.inj h)).symm⟩
    · rename_i pbase _ _
      split at h
      · cases h
      · exact ⟨e.base, pbase, by simpa using (congrArg Prod.fst (Except.ok.inj h)).symm⟩
    · cases h
    · cases h
    · cases h

theorem translate_lt {p : Params} {kind : AccessKind} {v : Word} {pa : Nat} {type : AccessType}
    (hp : 3 ≤ p.psize) (h : translate p kind v = .ok (pa, type)) : pa < 2 ^ p.psize ∧ pa % 8 = v.toNat % 8 := by
  obtain ⟨base, pbase, rfl⟩ := translate_ok h
  refine ⟨physicalAddress_lt p hp base pbase v, ?_⟩
  simp only [physicalAddress]
  omega

/-- The cells of an access inside one aligned doubleword are physical addresses. -/
theorem dataCells_lt {p : Params} (hp : 3 ≤ p.psize) {pa n : Nat} (h : pa < 2 ^ p.psize) (hn : pa % 8 + n ≤ 8) :
    ∀ a ∈ dataCells p pa n, a < 2 ^ p.psize := by
  have h1 := two_pow_psize hp
  intro a ha
  simp only [dataCells, List.mem_map, List.mem_range] at ha
  obtain ⟨j, hj, rfl⟩ := ha
  simp only [dataCell]
  split <;> omega

/-! ## Memory of coherent type -/

/-- The distance from one residue to another. -/
theorem mod_distance {m q a : Nat} (hm : 0 < m) (ha : a < m) (n : Nat) :
    (q + n) % m = a ↔ n % m = (a + m - q % m) % m := by
  have hq := Nat.mod_lt q hm
  have hn := Nat.mod_lt n hm
  have h : (q + n) % m = (q % m + n % m) % m := Nat.add_mod ..
  rw [h]
  generalize q % m = q' at *
  generalize n % m = n' at *
  by_cases h1 : q' + n' < m
  · rw [Nat.mod_eq_of_lt h1]
    by_cases h2 : q' ≤ a
    · rw [show a + m - q' = (a - q') + m by omega, Nat.add_mod_right, Nat.mod_eq_of_lt (by omega)]; omega
    · rw [Nat.mod_eq_of_lt (show a + m - q' < m by omega)]; omega
  · rw [show q' + n' = (q' + n' - m) + m by omega, Nat.add_mod_right, Nat.mod_eq_of_lt (by omega)]
    by_cases h2 : q' ≤ a
    · rw [show a + m - q' = (a - q') + m by omega, Nat.add_mod_right, Nat.mod_eq_of_lt (by omega)]; omega
    · rw [Nat.mod_eq_of_lt (show a + m - q' < m by omega)]; omega

/-- Where the first address of a region that reaches `pa` lies. -/
theorem regionFirst_spec {p : Params} (hp : 3 ≤ p.psize) (e : MapEntry) (pbase : Nat) {pa : Nat}
    (hpa : pa < 2 ^ p.psize) :
    ∃ k < 2 ^ (p.psize - 3), regionFirst p e pbase pa = 8 * (e.base / 8 + k) + pa % 8 ∧
      ∀ n, (pbase / 8 + n) % 2 ^ (p.psize - 3) = pa / 8 ↔ n % 2 ^ (p.psize - 3) = k := by
  have hm : 0 < 2 ^ (p.psize - 3) := Nat.two_pow_pos _
  have ha : pa / 8 < 2 ^ (p.psize - 3) := by have := two_pow_psize hp; omega
  exact ⟨_, Nat.mod_lt _ hm, rfl, mod_distance hm ha⟩

/-- A region reaches a physical address when it sends one of its virtual addresses there. -/
theorem regionReaches_iff {p : Params} (hp : 3 ≤ p.psize) (e : MapEntry) (pbase : Nat) {pa : Nat}
    (hpa : pa < 2 ^ p.psize) :
    regionReaches p e pbase pa = true ↔
      ∃ v : Word, e.base ≤ v.toNat ∧ v.toNat < e.base + e.size ∧ physicalAddress p e.base pbase v = pa := by
  obtain ⟨k, hk, hf, hd⟩ := regionFirst_spec hp e pbase hpa
  rw [regionReaches, Bool.and_eq_true, decide_eq_true_eq, decide_eq_true_eq]
  simp only [physicalAddress]
  have hpre : regionPreimage p e pbase pa = 8 * (e.base / 8 + k) + pa % 8 ∧ e.base ≤ regionPreimage p e pbase pa ∨
      regionPreimage p e pbase pa = 8 * (e.base / 8 + (k + 2 ^ (p.psize - 3))) + pa % 8 ∧
        8 * (e.base / 8 + k) + pa % 8 < e.base := by
    simp only [regionPreimage, hf]; split <;> omega
  generalize regionPreimage p e pbase pa = u at *
  generalize 2 ^ (p.psize - 3) = m at *
  have hk' := (hd k).2 (Nat.mod_eq_of_lt hk)
  have hk'' := (hd (k + m)).2 (by rw [Nat.add_mod_right, Nat.mod_eq_of_lt hk])
  constructor
  · rintro ⟨h1, h2⟩
    refine ⟨BitVec.ofNat 64 u, ?_⟩
    rw [BitVec.toNat_ofNat, Nat.mod_eq_of_lt h2]
    rcases hpre with ⟨rfl, h3⟩ | ⟨rfl, h3⟩
    · refine ⟨h3, h1, ?_⟩
      rw [show pbase / 8 + (8 * (e.base / 8 + k) + pa % 8) / 8 - e.base / 8 = pbase / 8 + k by omega, hk']
      omega
    · refine ⟨by omega, h1, ?_⟩
      rw [show pbase / 8 + (8 * (e.base / 8 + (k + m)) + pa % 8) / 8 - e.base / 8 = pbase / 8 + (k + m) by omega, hk'']
      omega
  · rintro ⟨v, h1, h2, h3⟩
    have hv := v.isLt
    generalize v.toNat = x at *
    rw [show pbase / 8 + x / 8 - e.base / 8 = pbase / 8 + (x / 8 - e.base / 8) by omega] at h3
    have h5 := (hd (x / 8 - e.base / 8)).1 (by omega)
    have h6 := Nat.div_add_mod (x / 8 - e.base / 8) m
    rw [h5] at h6
    generalize (x / 8 - e.base / 8) / m = j at *
    rcases Nat.eq_zero_or_pos j with rfl | hj
    · simp only [Nat.mul_zero] at h6
      omega
    · have h7 : m ≤ m * j := Nat.le_mul_of_pos_right m hj
      generalize m * j = mj at *
      omega

/-- A byte of the linked location lies in its block, whatever `LLblock` is. -/
theorem covers_of_mem_cells {l : Link} {p : Params} {a : Nat} (h : a ∈ l.cells p) : l.covers p a = true :=
  List.any_eq_true.2 ⟨a, h, by simp⟩

/-! ## Accesses -/

theorem aligned_done {kind : AccessKind} {v : Word} {n : Nat} {next : Effect} {s' : State} {d : Delay}
    (h : aligned kind v n next = .done s' d) : v.toNat % n = 0 ∧ next = .done s' d := by
  simp only [aligned] at h
  split at h
  · exact ⟨‹_›, h⟩
  · cases h

theorem translated_done {s : State} {kind : AccessKind} {v : Word} {next : Nat → AccessType → Effect} {s' : State}
    {d : Delay} (h : s.translated kind v next = .done s' d) :
    ∃ pa type, translate s.params kind v = .ok (pa, type) ∧ next pa type = .done s' d := by
  simp only [State.translated] at h
  split at h
  · cases h
  · exact ⟨_, _, ‹_›, h⟩

theorem perform_done {s : State} {kind : AccessKind} {pa : Nat} {type : AccessType} {cells : List Nat}
    {next : State → Effect} {s' : State} {d : Delay} (h : s.perform kind pa type cells next = .done s' d) :
    History.mixed s.history type cells = false ∧ busErrorAt s.params kind pa = false ∧
      next (s.remember kind type cells) = .done s' d := by
  simp only [State.perform] at h
  split at h
  · cases h
  · split at h
    · cases h
    · simp only [Bool.not_eq_true] at *
      exact ⟨‹_›, ‹_›, h⟩

/-- A load that completes. -/
theorem load_done {s : State} {v : Word} {n : Nat} {next : Nat → State → Effect} {s' : State} {d : Delay}
    (h : s.load v n next = .done s' d) :
    ∃ pa type, v.toNat % n = 0 ∧ translate s.params .load v = .ok (pa, type) ∧
      History.mixed s.history type (dataCells s.params pa n) = false ∧ busErrorAt s.params .load pa = false ∧
      next (s.readCells (dataCells s.params pa n)) (s.remember .load type (dataCells s.params pa n)) = .done s' d := by
  obtain ⟨h1, h2⟩ := aligned_done h
  obtain ⟨pa, type, h3, h4⟩ := translated_done h2
  obtain ⟨h5, h6, h7⟩ := perform_done h4
  exact ⟨pa, type, h1, h3, h5, h6, h7⟩

/-- When a load completes. -/
theorem load_eq {s : State} {v : Word} {n : Nat} {next : Nat → State → Effect} {pa : Nat} {type : AccessType}
    (h1 : v.toNat % n = 0) (h2 : translate s.params .load v = .ok (pa, type))
    (h3 : History.mixed s.history type (dataCells s.params pa n) = false)
    (h4 : busErrorAt s.params .load pa = false) :
    s.load v n next =
      next (s.readCells (dataCells s.params pa n)) (s.remember .load type (dataCells s.params pa n)) := by
  simp [State.load, aligned, h1, State.translated, h2, State.perform, h3, h4, State.remember]
  rfl

/-- A store that completes. -/
theorem store_done {s : State} {v : Word} {n value : Nat} {next : State → Effect} {s' : State} {d : Delay}
    (h : s.store v n value next = .done s' d) :
    ∃ pa type, v.toNat % n = 0 ∧ translate s.params .store v = .ok (pa, type) ∧
      History.mixed s.history type (dataCells s.params pa n) = false ∧
      next ((s.remember .store type (dataCells s.params pa n)).writeCells (dataCells s.params pa n) value) =
        .done s' d := by
  obtain ⟨h1, h2⟩ := aligned_done h
  obtain ⟨pa, type, h3, h4⟩ := translated_done h2
  obtain ⟨h5, _, h7⟩ := perform_done h4
  exact ⟨pa, type, h1, h3, h5, h7⟩

/-- A store never reports a Bus Error. -/
@[simp] theorem busErrorAt_store (p : Params) (pa : Nat) : busErrorAt p .store pa = false := by
  simp [busErrorAt]

/-- When a store completes. -/
theorem store_eq {s : State} {v : Word} {n value : Nat} {next : State → Effect} {pa : Nat} {type : AccessType}
    (h1 : v.toNat % n = 0) (h2 : translate s.params .store v = .ok (pa, type))
    (h3 : History.mixed s.history type (dataCells s.params pa n) = false) :
    s.store v n value next =
      next ((s.remember .store type (dataCells s.params pa n)).writeCells (dataCells s.params pa n) value) := by
  simp [State.store, aligned, h1, State.translated, h2, State.perform, h3, State.remember]

/-- A load of selected bytes that completes. -/
theorem loadSide_done {s : State} {side : Side} {v : Word} {n : Nat} {next : Nat → State → Effect} {s' : State}
    {d : Delay} (h : s.loadSide side v n next = .done s' d) :
    ∃ pa type, translate s.params .load v = .ok (pa, type) ∧
      next (s.readCells (selectedCells s.params side v pa n))
        (s.remember .load type (selectedCells s.params side v pa n)) = .done s' d := by
  obtain ⟨pa, type, h3, h4⟩ := translated_done h
  exact ⟨pa, type, h3, (perform_done h4).2.2⟩

/-- A store of selected bytes that completes. -/
theorem storeSide_done {s : State} {side : Side} {v : Word} {n value : Nat} {s' : State} {d : Delay}
    (h : s.storeSide side v n value = .done s' d) :
    ∃ pa type, translate s.params .store v = .ok (pa, type) ∧ d = .none ∧
      s' = (s.remember .store type (selectedCells s.params side v pa n)).writeCells
        (selectedCells s.params side v pa n) (storedPart s.params side v n (value % 2 ^ (8 * n))) := by
  obtain ⟨pa, type, h3, h4⟩ := translated_done h
  have h5 := (perform_done h4).2.2
  simp only [State.complete, Effect.done.injEq] at h5
  exact ⟨pa, type, h3, h5.2.symm, h5.1.symm⟩

/-- A linked load that completes. -/
theorem linkedLoad_done {s : State} {v : Word} {size : LinkSize} {rt : Reg} {result : Nat → Word} {s' : State}
    {d : Delay} (h : s.linkedLoad v size rt result = .done s' d) :
    ∃ pa type, translate s.params .load v = .ok (pa, type) ∧ v.toNat % size.bytes = 0 ∧ d = .none ∧
      s' = { (s.remember .load type (dataCells s.params pa size.bytes)).setX rt
              (result (s.readCells (dataCells s.params pa size.bytes))) with
             llbit := true, link := some ⟨v, size, pa, false, s.pc, s.pc⟩ } := by
  obtain ⟨h1, h2⟩ := aligned_done h
  obtain ⟨pa, type, h3, h4⟩ := translated_done h2
  split at h4
  · cases h4
  · have h5 := (perform_done h4).2.2
    simp only [State.complete, Effect.done.injEq] at h5
    exact ⟨pa, type, h3, h1, h5.2.symm, h5.1.symm⟩

/-- A conditional store that completes: it has stored, or it has failed. -/
theorem conditionalStore_done {s : State} {v : Word} {size : LinkSize} {rt : Reg} {s' : State} {d : Delay}
    (h : s.conditionalStore v size rt = .done s' d) :
    ∃ pa type, translate s.params .store v = .ok (pa, type) ∧ v.toNat % size.bytes = 0 ∧ d = .none ∧
      (s' = { ((s.remember .store type (dataCells s.params pa size.bytes)).writeCells
                (dataCells s.params pa size.bytes) (s.x rt).toNat).setX rt 1#64 with llbit := false, link := none } ∨
       s' = { s.setX rt 0#64 with llbit := false, link := none }) := by
  obtain ⟨h1, h2⟩ := aligned_done h
  obtain ⟨pa, type, h3, h4⟩ := translated_done h2
  refine ⟨pa, type, h3, h1, ?_⟩
  split at h4
  · cases h4
  · split at h4
    · cases h4
    · split at h4
      · cases h4
      · split at h4
        · have h5 := (perform_done h4).2.2
          simp only [State.endSequence, State.complete, Effect.done.injEq] at h5
          exact ⟨h5.2.symm, .inl h5.1.symm⟩
        · simp only [State.endSequence, State.complete, Effect.done.injEq] at h4
          exact ⟨h4.2.symm, .inr h4.1.symm⟩

/-! ## Registers of unit 1 (10_state.md R49 to R52) -/

theorem fgr_setFgr (s : State) (i : Reg) (v : Word) (j : Reg) :
    (s.setFgr i v).fgr j = if i = j then v else s.fgr j := by
  simp only [State.fgr, State.setFgr, readCpr, writeCpr]
  by_cases h : i = j
  · subst h; simp
  · have h' : i.toNat ≠ j.toNat := fun e => h (BitVec.eq_of_toNat_eq e)
    simp [h, h']

@[simp] theorem low32_setLowWord (old : Word) (w : Word32) : low32 (setLowWord old w) = w := by
  refine BitVec.eq_of_getElem_eq fun k hk => ?_
  have h : (old.extractLsb' 32 32 ++ w).getLsbD k = w[k] := by
    rw [BitVec.getLsbD_append, if_pos hk, BitVec.getLsbD_eq_getElem hk]
  simpa [low32, setLowWord] using h

theorem evenOf_ne_oddOf (i : Reg) : evenOf i ≠ oddOf i := by revert i; decide

theorem evenOf_of_even {i : Reg} (h : i[0] = false) : evenOf i = i := by revert i; decide

@[simp] theorem setPair_params (s : State) (i : Reg) (hi lo : Word32) : (s.setPair i hi lo).params = s.params := rfl

theorem fgr_setPair (s : State) (i : Reg) (hi lo : Word32) (j : Reg) :
    low32 ((s.setPair i hi lo).fgr j) =
      if evenOf i = j then lo else if oddOf i = j then hi else low32 (s.fgr j) := by
  simp only [State.setPair, fgr_setFgr]
  split
  · simp
  · split <;> simp

theorem append_halves (d : Word) : d.extractLsb' 32 32 ++ low32 d = d := by
  ext k hk
  simp only [low32, BitVec.getElem_append, BitVec.getElem_extractLsb', BitVec.getElem_setWidth]
  split
  · simp [BitVec.getLsbD_eq_getElem hk]
  · rw [show 32 + (k - 32) = k by omega, BitVec.getLsbD_eq_getElem hk]

/-- A value stored in an FPR is the value of the FPR in the same format (10_state.md R51, R52). -/
theorem valueFpr_storeFpr (s : State) (fpr : Reg) (fmt : FpFormat) (v : BitVec fmt.width)
    (h : validFpr s.params fpr = true) : (s.storeFpr fpr fmt v).valueFpr fpr fmt = v := by
  have word : ∀ w, (s.storeFprWord fpr w).valueFprWord fpr = w := by
    intro w
    unfold State.storeFprWord State.valueFprWord
    cases hw : wideFGR s.params with
    | true => simp [validFpr, hw, fgr_setFgr]
    | false =>
      have he : fpr[0] = false := by simpa [validFpr, hw] using h
      simp [validFpr, hw, he, fgr_setPair, evenOf_of_even he]
  have double : ∀ d, (s.copLoadDouble1 fpr d).copStoreDouble1 fpr = d := by
    intro d
    unfold State.copLoadDouble1 State.copStoreDouble1
    cases hw : wideFGR s.params with
    | true => simp [hw, fgr_setFgr]
    | false =>
      have he : fpr[0] = false := by simpa [validFpr, hw] using h
      simp [hw, he, fgr_setPair, evenOf_ne_oddOf]
      exact append_halves d
  cases fmt with
  | S => exact word v
  | W => exact word v
  | D => exact double v
  | L => exact double v
/-! ## Around the rule of an instruction -/

/-- What a next state of an issued instruction is: an exception taken, or the rule completed. -/
theorem issue_next {s : State} {t : Traits} {rule : State → Effect} {s' : State} (h : s.issue t rule = .next s') :
    (∃ e, s' = s.takeException e) ∨ ∃ s₁ d, rule s = .done s₁ d ∧ s' = s.retire t s₁ d := by
  simp only [State.issue] at h
  split at h
  · exact .inl ⟨_, (Host.Outcome.next.inj h).symm⟩
  · split at h
    · cases h
    · split at h
      · exact .inl ⟨_, (Host.Outcome.next.inj h).symm⟩
      · split at h
        · cases h
        · split at h
          · exact .inr ⟨_, _, ‹_›, (Host.Outcome.next.inj h).symm⟩
          · exact .inl ⟨_, (Host.Outcome.next.inj h).symm⟩
          · cases h

/-- No check before the rule stops the instruction (60_exceptions.md R455, steps 4 to 8). -/
structure Admits (s : State) (t : Traits) : Prop where
  level : t.level.rank ≤ s.params.archLevel.rank
  slot : t.branch = true → s.delay = .none
  usable : ∀ z, t.unit = some z → unitUsable s.params z = true
  loaded : s.loadHazard t = false

/-- An instruction that is admitted runs its rule. -/
theorem issue_of_admits {s : State} {t : Traits} (h : Admits s t) (rule : State → Effect) :
    s.issue t rule =
      match rule s with
      | .done s' d => .next (s.retire t s' d)
      | .raise e => .next (s.takeException e)
      | .refuse r => .refused r := by
  have h1 : ¬ s.params.archLevel.rank < t.level.rank := by have := h.level; omega
  have h2 : ¬ (t.branch = true ∧ s.delay ≠ .none) := fun ⟨a, b⟩ => b (h.slot a)
  have h3 : (t.unit.filter fun z => !unitUsable s.params z) = none := by
    cases hu : t.unit with
    | none => rfl
    | some z => simp [Option.filter, h.usable z hu]
  simp only [State.issue, if_neg h1, if_neg h2, h3, h.loaded]
  rfl

end Sys2Proof.Machine
end

