-- ==== Sys2Proof/Laws/Platform.lean ====
section
/-! SUPPORT. What the platform's changes to an ended run can do (60_exceptions.md R460): one change gives the part it
names its value and leaves every other part, and all of them keep the invariant. -/

namespace Sys2Proof.Machine

/-! ## Coprocessor units -/

@[simp] theorem cop_setCop (s : State) (z y : Fin 4) (u : CopUnit) :
    (s.setCop z u).cop y = if z = y then u else s.cop y := by
  revert z y; simp [Fin.forall_fin_succ, State.setCop, State.cop]

theorem readCpr_writeCpr (u : CopUnit) (i j : Reg) (v : Word) :
    readCpr (writeCpr u i v) j = if i = j then v else readCpr u j := by
  simp only [readCpr, writeCpr, Vector.getElem_set, BitVec.toNat_inj]

theorem readCcr_writeCcr (u : CopUnit) (i j : Reg) (v : Word) :
    readCcr (writeCcr u i v) j = if i = j then v else readCcr u j := by
  simp only [readCcr, writeCcr, Vector.getElem_set, BitVec.toNat_inj]

@[simp] theorem readCcr_writeCpr (u : CopUnit) (i j : Reg) (v : Word) : readCcr (writeCpr u i v) j = readCcr u j := rfl
@[simp] theorem readCpr_writeCcr (u : CopUnit) (i j : Reg) (v : Word) : readCpr (writeCcr u i v) j = readCpr u j := rfl
@[simp] theorem coc_writeCpr (u : CopUnit) (i : Reg) (v : Word) : (writeCpr u i v).coc = u.coc := rfl
@[simp] theorem coc_writeCcr (u : CopUnit) (i : Reg) (v : Word) : (writeCcr u i v).coc = u.coc := rfl

/-- A unit is replaced, and nothing else changes. -/
theorem setCop_rest (s : State) (z : Fin 4) (u : CopUnit) :
    s.setCop z u =
      { s with cop0 := (s.setCop z u).cop 0, cop1 := (s.setCop z u).cop 1, cop2 := (s.setCop z u).cop 2,
               cop3 := (s.setCop z u).cop 3 } := by
  revert z; simp [Fin.forall_fin_succ, State.setCop, State.cop]

/-! ## The parts that no change names -/

@[simp] theorem setCop_gpr (s : State) (z : Fin 4) (u : CopUnit) : (s.setCop z u).gpr = s.gpr := by rw [setCop_rest]
@[simp] theorem setCop_x (s : State) (z : Fin 4) (u : CopUnit) (r : Reg) : (s.setCop z u).x r = s.x r := by
  rw [setCop_rest]; rfl
@[simp] theorem setCop_hi (s : State) (z : Fin 4) (u : CopUnit) : (s.setCop z u).hi = s.hi := by rw [setCop_rest]
@[simp] theorem setCop_lo (s : State) (z : Fin 4) (u : CopUnit) : (s.setCop z u).lo = s.lo := by rw [setCop_rest]
@[simp] theorem setCop_hiGuard (s : State) (z : Fin 4) (u : CopUnit) : (s.setCop z u).hiGuard = s.hiGuard := by
  rw [setCop_rest]
@[simp] theorem setCop_loGuard (s : State) (z : Fin 4) (u : CopUnit) : (s.setCop z u).loGuard = s.loGuard := by
  rw [setCop_rest]
@[simp] theorem setCop_hiloFresh (s : State) (z : Fin 4) (u : CopUnit) : (s.setCop z u).hiloFresh = s.hiloFresh := by
  rw [setCop_rest]
@[simp] theorem setCop_link (s : State) (z : Fin 4) (u : CopUnit) : (s.setCop z u).link = s.link := by rw [setCop_rest]
@[simp] theorem setCop_llbit (s : State) (z : Fin 4) (u : CopUnit) : (s.setCop z u).llbit = s.llbit := by
  rw [setCop_rest]
@[simp] theorem setCop_fccHigh (s : State) (z : Fin 4) (u : CopUnit) : (s.setCop z u).fccHigh = s.fccHigh := by
  rw [setCop_rest]
@[simp] theorem setCop_fcsr (s : State) (z : Fin 4) (u : CopUnit) : (s.setCop z u).fcsr = s.fcsr := by rw [setCop_rest]
@[simp] theorem setCop_mem (s : State) (z : Fin 4) (u : CopUnit) : (s.setCop z u).mem = s.mem := by rw [setCop_rest]
@[simp] theorem setCop_history (s : State) (z : Fin 4) (u : CopUnit) : (s.setCop z u).history = s.history := by
  rw [setCop_rest]
@[simp] theorem setCop_params (s : State) (z : Fin 4) (u : CopUnit) : (s.setCop z u).params = s.params := by
  rw [setCop_rest]
@[simp] theorem setCop_env (s : State) (z : Fin 4) (u : CopUnit) : (s.setCop z u).env = s.env := by rw [setCop_rest]
@[simp] theorem setCop_loadDelay (s : State) (z : Fin 4) (u : CopUnit) : (s.setCop z u).loadDelay = s.loadDelay := by
  rw [setCop_rest]

@[simp] theorem alter_params (s : State) (c : Alteration) : (s.alter c).params = s.params := by
  cases c <;> simp [State.alter]
@[simp] theorem alter_env (s : State) (c : Alteration) : (s.alter c).env = s.env := by cases c <;> simp [State.alter]
@[simp] theorem alter_llbit (s : State) (c : Alteration) : (s.alter c).llbit = s.llbit := by
  cases c <;> simp [State.alter]
@[simp] theorem alter_loadDelay (s : State) (c : Alteration) : (s.alter c).loadDelay = s.loadDelay := by
  cases c <;> simp [State.alter]

@[simp] theorem alterAll_params (s : State) (cs : List Alteration) : (s.alterAll cs).params = s.params := by
  induction cs generalizing s with
  | nil => rfl
  | cons c cs ih => exact (ih _).trans (alter_params s c)
@[simp] theorem alterAll_env (s : State) (cs : List Alteration) : (s.alterAll cs).env = s.env := by
  induction cs generalizing s with
  | nil => rfl
  | cons c cs ih => exact (ih _).trans (alter_env s c)
@[simp] theorem alterAll_llbit (s : State) (cs : List Alteration) : (s.alterAll cs).llbit = s.llbit := by
  induction cs generalizing s with
  | nil => rfl
  | cons c cs ih => exact (ih _).trans (alter_llbit s c)

/-! ## Memory and the record of accesses -/

theorem find_setNote {h : List (Nat × Note)} (hr : Assoc.rising h = true) (k : Nat) (n : Option Note) (j : Nat) :
    Assoc.find (History.setNote h k n) j = if k = j then n else Assoc.find h j := by
  cases n with
  | none => rw [History.setNote, find_remove h k j hr]
  | some n => rw [History.setNote, find_put]

theorem rising_setNote {h : List (Nat × Note)} (hr : Assoc.rising h = true) (k : Nat) (n : Option Note) :
    Assoc.rising (History.setNote h k n) = true := by
  cases n with
  | none => exact rising_remove hr
  | some n => exact rising_put hr

theorem wf_alter {s : State} (h : Memory.wf s.mem = true) (c : Alteration) : Memory.wf (s.alter c).mem = true := by
  cases c <;> simp [State.alter, h, wf_write]

theorem rising_alter {s : State} (h : Assoc.rising s.history = true) (c : Alteration) :
    Assoc.rising (s.alter c).history = true := by
  cases c <;> simp [State.alter, h, rising_setNote]

/-! ## One change -/

/-- A change gives the part it names its value. -/
theorem holds_alter {s : State} (hm : Memory.wf s.mem = true) (hh : Assoc.rising s.history = true) (c : Alteration) :
    c.Holds (s.alter c) := by
  cases c with
  | gpr r v => by_cases h : r = 0#5 <;> simp [Alteration.Holds, State.alter, State.x, h]
  | _ =>
    simp [Alteration.Holds, State.alter, readCpr_writeCpr, readCcr_writeCcr, read_write hm, find_setNote hh]

/-- A change leaves every other part. -/
theorem holds_alter_of_other {s : State} (hm : Memory.wf s.mem = true) (hh : Assoc.rising s.history = true)
    {c d : Alteration} (h : c.Holds s) (hd : c.samePart s.params d = false) : c.Holds (s.alter d) := by
  cases c <;> cases d <;> first
    | exact h
    | exact Bool.noConfusion hd
    | simpa [Alteration.Holds, State.alter] using h
    | (simp only [Alteration.samePart, beq_eq_false_iff_ne, Bool.and_eq_false_iff] at hd
       simp only [Alteration.Holds, State.alter, cop_setCop, x_setX, read_write hm, find_setNote hh] at h ⊢
       split
       · rename_i e
         first
         | exact absurd e.symm hd
         | exact absurd e.1.symm hd
         | (subst e
            try simp only [readCpr_writeCpr, readCcr_writeCcr, readCcr_writeCpr, readCpr_writeCcr, coc_writeCpr,
              coc_writeCcr]
            first
            | exact h
            | exact (if_neg fun e => (hd.resolve_left (· rfl)) e.symm).trans h)
       · exact h)

/-! ## All the changes of a resumption -/

/-- The last change of a part holds after all. -/
theorem holds_alterAll {s : State} (hm : Memory.wf s.mem = true) (hh : Assoc.rising s.history = true) (c : Alteration)
    (before later : List Alteration) (hl : ∀ d ∈ later, c.samePart s.params d = false) :
    c.Holds (s.alterAll (before ++ c :: later)) := by
  induction before generalizing s with
  | cons b bs ih => exact ih (wf_alter hm b) (rising_alter hh b) (by simpa using hl)
  | nil =>
    suffices ∀ s : State, Memory.wf s.mem = true → Assoc.rising s.history = true → c.Holds s →
        (∀ d ∈ later, c.samePart s.params d = false) → c.Holds (s.alterAll later) from
      this _ (wf_alter hm c) (rising_alter hh c) (holds_alter hm hh c) (by simpa using hl)
    clear hm hh hl
    induction later with
    | nil => exact fun _ _ _ h _ => h
    | cons d ds ih =>
      exact fun s hm hh h hl => ih _ (wf_alter hm d) (rising_alter hh d)
        (holds_alter_of_other hm hh h (hl d (by simp))) fun e he => by simpa using hl e (by simp [he])

/-- A part that no change is of keeps its value. -/
theorem holds_alterAll_of_other {s : State} (hm : Memory.wf s.mem = true) (hh : Assoc.rising s.history = true)
    {c : Alteration} {cs : List Alteration} (h : c.Holds s) (hd : ∀ d ∈ cs, c.samePart s.params d = false) :
    c.Holds (s.alterAll cs) := by
  induction cs generalizing s with
  | nil => exact h
  | cons d ds ih =>
    exact ih (wf_alter hm d) (rising_alter hh d) (holds_alter_of_other hm hh h (hd d (by simp)))
      fun e he => by simpa using hd e (by simp [he])

/-- A byte that no change names reads as before. -/
theorem read_alterAll {s : State} (hm : Memory.wf s.mem = true) {cs : List Alteration} {a : Nat}
    (h : ∀ a' b, .byte a' b ∈ cs → a' % 2 ^ s.params.psize ≠ a) :
    Memory.read (s.alterAll cs).mem a = Memory.read s.mem a := by
  induction cs generalizing s with
  | nil => rfl
  | cons c cs ih =>
    refine (ih (wf_alter hm c) fun a' b hb => ?_).trans ?_
    · rw [alter_params]; exact h a' b (by simp [hb])
    · cases c <;> first
        | rfl
        | exact (read_write hm ..).trans (if_neg (h _ _ List.mem_cons_self))
        | simp [State.alter]

/-- What is remembered of a byte that no change names stays. -/
theorem find_alterAll {s : State} (hh : Assoc.rising s.history = true) {cs : List Alteration} {a : Nat}
    (h : ∀ a' n, .remembered a' n ∈ cs → a' % 2 ^ s.params.psize ≠ a) :
    Assoc.find (s.alterAll cs).history a = Assoc.find s.history a := by
  induction cs generalizing s with
  | nil => rfl
  | cons c cs ih =>
    refine (ih (rising_alter hh c) fun a' n hn => ?_).trans ?_
    · rw [alter_params]; exact h a' n (by simp [hn])
    · cases c <;> first
        | rfl
        | exact (find_setNote hh ..).trans (if_neg (h _ _ List.mem_cons_self))
        | simp [State.alter]

/-- The guards keep their values when no change is of them. -/
theorem hiGuard_alterAll {s : State} {cs : List Alteration} (h : ∀ n, .hiGuard n ∉ cs) :
    (s.alterAll cs).hiGuard = s.hiGuard := by
  induction cs generalizing s with
  | nil => rfl
  | cons c cs ih =>
    refine (ih fun n hn => h n (by simp [hn])).trans ?_
    cases c <;> first
      | rfl
      | exact absurd List.mem_cons_self (h _)
      | simp [State.alter]

theorem loGuard_alterAll {s : State} {cs : List Alteration} (h : ∀ n, .loGuard n ∉ cs) :
    (s.alterAll cs).loGuard = s.loGuard := by
  induction cs generalizing s with
  | nil => rfl
  | cons c cs ih =>
    refine (ih fun n hn => h n (by simp [hn])).trans ?_
    cases c <;> first
      | rfl
      | exact absurd List.mem_cons_self (h _)
      | simp [State.alter]

/-! ## The invariant -/

theorem keysBelow_setNote {n : Nat} {h : List (Nat × Note)} {k : Nat} {v : Option Note} (hk : keysBelow n h = true)
    (hn : k < n) : keysBelow n (History.setNote h k v) = true := by
  cases v with
  | none => exact keysBelow_remove hk
  | some v => exact keysBelow_put hk hn

theorem keysBelow_write {n : Nat} {m : List Host.Cell} {a : Nat} {b : Byte} (h : keysBelow n m = true) (ha : a < n) :
    keysBelow n (Memory.write m a b) = true := by
  simp only [Memory.write]
  split
  · exact keysBelow_remove h
  · exact keysBelow_put h ha

/-- A change keeps the invariant of a state whose `LLbit` is clear. -/
theorem inv_alter {s : State} (h : s.Inv) (hl : s.llbit = false) (c : Alteration) : (s.alter c).Inv where
  launch := by rw [alter_params]; exact h.launch
  zero := by cases c <;> first | exact h.zero | exact (setX_gpr_zero ..).trans h.zero | simp [State.alter, h.zero]
  hiGuard := by
    cases c <;> first | exact h.hiGuard | (rename_i n; exact Nat.le_of_lt_succ n.isLt) | simp [State.alter, h.hiGuard]
  loGuard := by
    cases c <;> first | exact h.loGuard | (rename_i n; exact Nat.le_of_lt_succ n.isLt) | simp [State.alter, h.loGuard]
  linked := by rw [alter_llbit, hl]; intro h'; cases h'
  memory := wf_alter h.memory c
  memoryKeys := by
    rw [alter_params]
    cases c <;> first
      | exact keysBelow_write h.memoryKeys (Nat.mod_lt _ (Nat.two_pow_pos _))
      | simp [State.alter, h.memoryKeys]
  history := rising_alter h.history c
  historyKeys := by
    rw [alter_params]
    cases c <;> first
      | exact keysBelow_setNote h.historyKeys (Nat.mod_lt _ (Nat.two_pow_pos _))
      | simp [State.alter, h.historyKeys]
  loadDelay := by rw [alter_loadDelay, alter_params]; exact h.loadDelay

/-- A resumption keeps the invariant. -/
theorem inv_resume {s : State} (h : s.Inv) (pc : Word) (cs : List Alteration) : (s.resume pc cs).Inv := by
  have key : ∀ cs (s : State), s.Inv → s.llbit = false → (s.alterAll cs).Inv := by
    intro cs
    induction cs with
    | nil => exact fun _ h _ => h
    | cons c cs ih => exact fun s h hl => ih _ (inv_alter h hl c) ((alter_llbit s c).trans hl)
  have h1 := key cs { s with llbit := false }
    { launch := h.launch, zero := h.zero, hiGuard := h.hiGuard, loGuard := h.loGuard, linked := (fun h' => by cases h'),
      memory := h.memory, memoryKeys := h.memoryKeys, history := h.history, historyKeys := h.historyKeys,
      loadDelay := h.loadDelay } rfl
  exact
    { launch := h1.launch, zero := h1.zero, hiGuard := h1.hiGuard, loGuard := h1.loGuard, linked := h1.linked,
      memory := h1.memory, memoryKeys := h1.memoryKeys, history := h1.history, historyKeys := h1.historyKeys,
      loadDelay := fun h' => by cases h' }

end Sys2Proof.Machine
end

