-- ==== Sys2Proof/WellFormed.lean ====
section
/-! DEFINITION. Which instructions respect the manual's restrictions on the values of their fields (00_scope.md R19:
"the valid values for instruction fields"). Every other field value is valid. An instruction that does not is still
decoded; its meaning refuses it by name. -/

namespace Sys2Proof

/-- The field restrictions: the link branches do not test GPR 31 (45_jump_branch.md R362), JALR does not link into
its source (R341), SYNC has stype 0 (46_misc.md R400). -/
def Instr.wellFormed : Instr → Bool
  | .bltzal rs _ | .bgezal rs _ | .bltzall rs _ | .bgezall rs _ => rs != 31#5
  | .jalr rs rd => rs != rd
  | .sync stype => stype == 0#5
  | _ => true

end Sys2Proof
end

