-- ==== Sys2Proof/Tests/Slice0.lean ====
section
/-! SUPPORT. The author's own tests. -/

namespace Sys2Proof.Tests

open Sys2Proof.Machine

/-! ## Decoding: one word for each row of the opcode table, written out from the row's encoding, with different
values in fields of the same kind -/

/-- The word decodes to the instruction, and the instruction encodes to the word. -/
def reads (c : Word32 × Instr) : Bool := decide (decode c.1 = .instr c.2) && encode c.2 == c.1

/-- CPU loads and stores, normal, 40_load_store.md. -/
theorem test_decode_loads_stores : ([
    (0x826A8421, .lb 19 10 0x8421), (0x926A8421, .lbu 19 10 0x8421), (0x866A8421, .lh 19 10 0x8421),
    (0x966A8421, .lhu 19 10 0x8421), (0x8E6A8421, .lw 19 10 0x8421), (0x9E6A8421, .lwu 19 10 0x8421),
    (0xDE6A8421, .ld 19 10 0x8421), (0xA26A8421, .sb 19 10 0x8421), (0xA66A8421, .sh 19 10 0x8421),
    (0xAE6A8421, .sw 19 10 0x8421), (0xFE6A8421, .sd 19 10 0x8421)] : List (Word32 × Instr)).all reads = true := by decide

/-- CPU loads and stores, unaligned, 40_load_store.md. -/
theorem test_decode_unaligned : ([
    (0x8A6A8421, .lwl 19 10 0x8421), (0x9A6A8421, .lwr 19 10 0x8421), (0xAA6A8421, .swl 19 10 0x8421),
    (0xBA6A8421, .swr 19 10 0x8421), (0x6A6A8421, .ldl 19 10 0x8421), (0x6E6A8421, .ldr 19 10 0x8421),
    (0xB26A8421, .sdl 19 10 0x8421), (0xB66A8421, .sdr 19 10 0x8421)] : List (Word32 × Instr)).all reads = true := by decide

/-- Atomic update, 41_atomic_coproc_load_store.md. -/
theorem test_decode_atomic : ([
    (0xC26A8421, .ll 19 10 0x8421), (0xD26A8421, .lld 19 10 0x8421), (0xE26A8421, .sc 19 10 0x8421),
    (0xF26A8421, .scd 19 10 0x8421)] : List (Word32 × Instr)).all reads = true := by decide

/-- Coprocessor loads and stores, 41_atomic_coproc_load_store.md. -/
theorem test_decode_coprocessor_transfers : ([
    (0xC66A8421, .lwc1 19 10 0x8421), (0xCA6A8421, .lwc2 19 10 0x8421), (0xD66A8421, .ldc1 19 10 0x8421),
    (0xDA6A8421, .ldc2 19 10 0x8421), (0xE66A8421, .swc1 19 10 0x8421), (0xEA6A8421, .swc2 19 10 0x8421),
    (0xF66A8421, .sdc1 19 10 0x8421), (0xFA6A8421, .sdc2 19 10 0x8421)] : List (Word32 × Instr)).all reads = true := by decide

/-- Indexed floating-point loads and stores, 41_atomic_coproc_load_store.md. -/
theorem test_decode_indexed_transfers : ([
    (0x4E6A0180, .lwxc1 19 10 6), (0x4E6A0181, .ldxc1 19 10 6), (0x4E6A3008, .swxc1 19 10 6),
    (0x4E6A3009, .sdxc1 19 10 6)] : List (Word32 × Instr)).all reads = true := by decide

/-- ALU, immediate operand, 42_alu.md. -/
theorem test_decode_alu_immediate : ([
    (0x226A8421, .addi 19 10 0x8421), (0x266A8421, .addiu 19 10 0x8421), (0x2A6A8421, .slti 19 10 0x8421),
    (0x2E6A8421, .sltiu 19 10 0x8421), (0x326A8421, .andi 19 10 0x8421), (0x366A8421, .ori 19 10 0x8421),
    (0x3A6A8421, .xori 19 10 0x8421), (0x626A8421, .daddi 19 10 0x8421), (0x666A8421, .daddiu 19 10 0x8421),
    (0x3C138421, .lui 19 0x8421)] : List (Word32 × Instr)).all reads = true := by decide

/-- ALU, three-operand, 42_alu.md. -/
theorem test_decode_alu_register : ([
    (0x026A3020, .add 19 10 6), (0x026A3021, .addu 19 10 6), (0x026A3022, .sub 19 10 6),
    (0x026A3023, .subu 19 10 6), (0x026A302C, .dadd 19 10 6), (0x026A302D, .daddu 19 10 6),
    (0x026A302E, .dsub 19 10 6), (0x026A302F, .dsubu 19 10 6), (0x026A302A, .slt 19 10 6),
    (0x026A302B, .sltu 19 10 6), (0x026A3024, .and 19 10 6), (0x026A3025, .or 19 10 6), (0x026A3026, .xor 19 10 6),
    (0x026A3027, .nor 19 10 6)] : List (Word32 × Instr)).all reads = true := by decide

/-- Shifts, 43_shift.md. -/
theorem test_decode_shifts : ([
    (0x00135180, .sll 19 10 6), (0x00135182, .srl 19 10 6), (0x00135183, .sra 19 10 6),
    (0x001351B8, .dsll 19 10 6), (0x001351BA, .dsrl 19 10 6), (0x001351BB, .dsra 19 10 6),
    (0x001351BC, .dsll32 19 10 6), (0x001351BE, .dsrl32 19 10 6), (0x001351BF, .dsra32 19 10 6),
    (0x026A3004, .sllv 19 10 6), (0x026A3006, .srlv 19 10 6), (0x026A3007, .srav 19 10 6),
    (0x026A3014, .dsllv 19 10 6), (0x026A3016, .dsrlv 19 10 6), (0x026A3017, .dsrav 19 10 6)] : List (Word32 × Instr)).all reads = true := by decide

/-- Multiply, divide, HI and LO, 44_muldiv.md. -/
theorem test_decode_multiply_divide : ([
    (0x026A0018, .mult 19 10), (0x026A0019, .multu 19 10), (0x026A001A, .div 19 10), (0x026A001B, .divu 19 10),
    (0x026A001C, .dmult 19 10), (0x026A001D, .dmultu 19 10), (0x026A001E, .ddiv 19 10), (0x026A001F, .ddivu 19 10),
    (0x00009810, .mfhi 19), (0x02600011, .mthi 19), (0x00009812, .mflo 19), (0x02600013, .mtlo 19)] : List (Word32 × Instr)).all reads = true := by decide

/-- Jumps and branches, 45_jump_branch.md. -/
theorem test_decode_jumps_branches : ([
    (0x0AABCDE5, .j 0x2ABCDE5), (0x0EABCDE5, .jal 0x2ABCDE5), (0x02600008, .jr 19), (0x02605009, .jalr 19 10),
    (0x126A8421, .beq 19 10 0x8421), (0x166A8421, .bne 19 10 0x8421), (0x1A608421, .blez 19 0x8421),
    (0x1E608421, .bgtz 19 0x8421), (0x526A8421, .beql 19 10 0x8421), (0x566A8421, .bnel 19 10 0x8421),
    (0x5A608421, .blezl 19 0x8421), (0x5E608421, .bgtzl 19 0x8421), (0x06608421, .bltz 19 0x8421),
    (0x06618421, .bgez 19 0x8421), (0x06628421, .bltzl 19 0x8421), (0x06638421, .bgezl 19 0x8421),
    (0x06708421, .bltzal 19 0x8421), (0x06718421, .bgezal 19 0x8421), (0x06728421, .bltzall 19 0x8421),
    (0x06738421, .bgezall 19 0x8421)] : List (Word32 × Instr)).all reads = true := by decide

/-- Miscellaneous, 46_misc.md. -/
theorem test_decode_miscellaneous : ([
    (0x02AF34CC, .syscall 0xABCD3), (0x02AF34CD, .brk 0xABCD3), (0x026AAD70, .tge 19 10 0x2B5),
    (0x026AAD71, .tgeu 19 10 0x2B5), (0x026AAD72, .tlt 19 10 0x2B5), (0x026AAD73, .tltu 19 10 0x2B5),
    (0x026AAD74, .teq 19 10 0x2B5), (0x026AAD76, .tne 19 10 0x2B5), (0x06688421, .tgei 19 0x8421),
    (0x06698421, .tgeiu 19 0x8421), (0x066A8421, .tlti 19 0x8421), (0x066B8421, .tltiu 19 0x8421),
    (0x066C8421, .teqi 19 0x8421), (0x066E8421, .tnei 19 0x8421), (0x000004CF, .sync 19),
    (0x026A300B, .movn 19 10 6), (0x026A300A, .movz 19 10 6), (0xCE6A8421, .pref 19 10 0x8421),
    (0x4E6A300F, .prefx 19 10 6)] : List (Word32 × Instr)).all reads = true := by decide

/-- Coprocessor instructions, 47_coprocessor.md. -/
theorem test_decode_coprocessor : ([
    (0x43ABCDE5, .cop0 1 0x1ABCDE5), (0x47ABCDE5, .cop1 1 0x1ABCDE5), (0x4BABCDE5, .cop2 1 0x1ABCDE5),
    (0x02755001, .movci 19 5 1 10)] : List (Word32 × Instr)).all reads = true := by decide

/-- Words that select no row are reserved, and a required-zero field that is not zero is told apart (95_test_vectors.md
B11). -/
theorem test_decode_rejects :
    ([0x70000000, 0x7C000000, 0xBC000000, 0xEC000000, 0x00000005, 0x00000028, 0x00000035, 0x00000039, 0x0000003D,
      0x04040000, 0x040D0000, 0x041F0000] : List Word32).all (fun w => decide (decode w = .reserved)) = true ∧
    ([0x00854060, 0x3C280001, 0x18810001, 0x03E00048, 0x00850818, 0x00204010, 0x00200000] : List Word32).all
      (fun w => decide (decode w = .requiredZero .I)) = true ∧
    decode 0x0000080F = .requiredZero .II ∧ decode 0x4C000020 = .cop1xArithmetic ∧
    decode 0x4C000002 = .cop1xReserved := by decide

/-- The host's word reader on three rows. -/
theorem test_decodeTableWord :
    decodeTableWord 32 0x80880010 = some (.lb 4 8 16) ∧ decodeTableWord 32 0x00854020 = some (.add 4 5 8) ∧
    decodeTableWord 32 0x70000000 = none := by decide

/-! ## Well-formedness: an ill-formed term for each check -/

theorem test_wellFormed_link_branch :
    (Instr.bltzal 31 4).wellFormed = false ∧ (Instr.bgezal 31 4).wellFormed = false ∧
    (Instr.bltzall 31 4).wellFormed = false ∧ (Instr.bgezall 31 4).wellFormed = false ∧
    (Instr.bgezal 4 4).wellFormed = true := by decide

theorem test_wellFormed_jalr :
    (Instr.jalr 25 25).wellFormed = false ∧ (Instr.jalr 25 31).wellFormed = true := by decide

theorem test_wellFormed_sync : (Instr.sync 1).wellFormed = false ∧ (Instr.sync 0).wellFormed = true := by decide

/-! ## Small states -/

/-- Several general registers written. -/
def withRegs (s : State) (regs : List (Reg × Word)) : State := regs.foldl (fun s c => s.setX c.1 c.2) s

/-- The launch of 95_test_vectors.md at `pc` = 0x1000, with some registers and bytes. -/
def machine (regs : List (Reg × Word)) (mem : List Host.Cell) : State :=
  withRegs { State.reset with pc := 0x1000#64, mem := mem } regs

/-- The same, with other launch parameters. -/
def machineOf (p : Params) (regs : List (Reg × Word)) (mem : List Host.Cell) : State :=
  { machine regs mem with params := p }

/-- Every unit enabled. -/
def enabled : Params := { Config.resetParams with cu := 0xF#4 }

/-- The launch that has MOVF and MOVT. -/
def withMoves : Params := { enabled with fpuMoves := true }

/-- One region, of coherent type. -/
def coherent : Params :=
  { Config.resetParams with translation := [⟨0, 2 ^ 64, true, true, true, .mapped 0 .cachedCoherent⟩] }

/-- The little-endian machine. -/
def little : Params := { Config.resetParams with bigEndianMem := false }

/-- Completed, and the next state is as said. -/
def completes (o : Host.Outcome State Fault Refusal) (p : State → Bool) : Bool :=
  match o with
  | .next t => decide (t.trap = none) && p t
  | _ => false

/-- The exception was taken, with this victim. -/
def raises (o : Host.Outcome State Fault Refusal) (e : Exception) (victim : Word) : Bool :=
  match o with
  | .next t => decide (t.trap = some ⟨e, victim, false, victim⟩)
  | _ => false

/-- Refused by this name. -/
def refuses (o : Host.Outcome State Fault Refusal) (r : Refusal) : Bool :=
  match o with
  | .refused r' => decide (r' = r)
  | _ => false

/-- One instruction writes one register. -/
def writes (regs : List (Reg × Word)) (i : Instr) (rd : Reg) (v : Word) : Bool :=
  completes (exec i (machine regs [])) fun t => t.x rd == v

/-- The bytes 80 91 A2 B3 C4 D5 E6 F7 at 0x2000 (95_test_vectors.md B1). -/
def sample : List Host.Cell :=
  [(0x2000, 0x80), (0x2001, 0x91), (0x2002, 0xA2), (0x2003, 0xB3), (0x2004, 0xC4), (0x2005, 0xD5), (0x2006, 0xE6),
   (0x2007, 0xF7)]

/-- One load from the sample. -/
def loads (p : Params) (old : Word) (i : Instr) (v : Word) : Bool :=
  completes (exec i (machineOf p [(4, 0x2000), (8, old)] sample)) fun t => t.x 8 == v

/-- One store over bytes EE at 0x2008. -/
def stores (p : Params) (i : Instr) (bytes : List Byte) : Bool :=
  completes (exec i (machineOf p [(4, 0x2000), (8, 0x0102030405060708)] [(0x2008, 0xEE), (0x2009, 0xEE)])) fun t =>
    (List.range bytes.length).map (fun j => Memory.read t.mem (0x2008 + j)) == bytes

/-! ## Single steps; the expected values are those of 95_test_vectors.md, by part -/

/-- B1. -/
theorem test_loads :
    loads Config.resetParams 0 (.lb 4 8 7) 0xFFFFFFFFFFFFFFF7 ∧ loads Config.resetParams 0 (.lbu 4 8 0) 0x80 ∧
    loads Config.resetParams 0 (.lh 4 8 6) 0xFFFFFFFFFFFFE6F7 ∧ loads little 0 (.lhu 4 8 0) 0x9180 ∧
    loads Config.resetParams 0 (.lw 4 8 4) 0xFFFFFFFFC4D5E6F7 ∧ loads little 0 (.lwu 4 8 0) 0xB3A29180 ∧
    loads little 0 (.ld 4 8 0) 0xF7E6D5C4B3A29180 := by decide

/-- B1. -/
theorem test_stores :
    stores Config.resetParams (.sb 4 8 8) [0x08, 0xEE] ∧ stores little (.sh 4 8 8) [0x08, 0x07] ∧
    stores Config.resetParams (.sw 4 8 8) [0x05, 0x06, 0x07, 0x08, 0x00] ∧
    stores little (.sd 4 8 8) [0x08, 0x07, 0x06, 0x05, 0x04, 0x03, 0x02, 0x01, 0x00] := by decide

/-- B1: misaligned, and a misaligned load into register 0. -/
theorem test_misaligned :
    raises (exec (.lh 4 8 1) (machine [(4, 0x2000)] sample)) (.addressError .load 0x2001) 0x1000 ∧
    raises (exec (.lw 4 0 2) (machine [(4, 0x2000)] sample)) (.addressError .load 0x2002) 0x1000 ∧
    raises (exec (.sw 4 8 0xFFFF) (machine [(4, 0x2000)] [])) (.addressError .store 0x1FFF) 0x1000 := by decide

/-- B2. -/
theorem test_unaligned_loads :
    loads Config.resetParams 0x55667788 (.lwl 4 8 2) 0xFFFFFFFFA2B37788 ∧
    loads little 0x55667788 (.lwl 4 8 1) 0xFFFFFFFF91807788 ∧
    loads Config.resetParams 0x55667788 (.lwr 4 8 3) 0xFFFFFFFF8091A2B3 ∧
    loads little 0x55667788 (.lwr 4 8 0) 0xFFFFFFFFB3A29180 ∧
    loads Config.resetParams 0x1122334455667788 (.ldl 4 8 5) 0xD5E6F74455667788 ∧
    loads little 0x1122334455667788 (.ldr 4 8 5) 0x1122334455F7E6D5 := by decide

/-- B2. -/
theorem test_unaligned_stores :
    stores Config.resetParams (.swl 4 8 9) [0xEE, 0x05, 0x06, 0x07, 0x00] ∧
    stores little (.swr 4 8 9) [0xEE, 0x08, 0x07, 0x06, 0x00] ∧
    stores little (.sdl 4 8 9) [0x02, 0x01, 0x00] ∧
    stores Config.resetParams (.sdr 4 8 9) [0x07, 0x08, 0x00] := by decide

/-- The state after a linked load of the word at 0x2000. -/
def linked (size : LinkSize) : State :=
  { machine [(4, 0x2000), (8, 0x0102030405060755)] sample with
    llbit := true, link := some ⟨0x2000, size, 0x2000, false, 0x1000, 0x1000⟩ }

/-- B3. -/
theorem test_linked :
    completes (exec (.ll 4 9 0) (machine [(4, 0x2000)] sample)) (fun t =>
      t.x 9 == 0xFFFFFFFF8091A2B3 && t.llbit && decide (t.link.map Link.size = some .word)) ∧
    completes (exec (.lld 4 9 0) (machine [(4, 0x2000)] sample)) (fun t =>
      t.x 9 == 0x8091A2B3C4D5E6F7 && t.llbit && decide (t.link.map Link.size = some .double)) ∧
    completes (exec (.sc 4 8 0) (linked .word)) (fun t =>
      t.x 8 == 1 && Memory.read t.mem 0x2003 == 0x55 && Memory.read t.mem 0x2004 == 0xC4 && decide (t.link = none)) ∧
    completes (exec (.scd 4 8 0) (linked .double)) (fun t => t.x 8 == 1 && Memory.read t.mem 0x2007 == 0x55) ∧
    completes (exec (.sc 4 8 0) { linked .word with llbit := false }) (fun t =>
      t.x 8 == 0 && Memory.read t.mem 0x2003 == 0xB3) ∧
    refuses (exec (.sc 4 8 4) (linked .word)) .conditionalStoreWithoutLink ∧
    refuses (exec (.scd 4 8 0) (linked .word)) .conditionalStoreWithoutLink := by decide

/-- The state after a linked load, when another agent has stored 9 at `a`. -/
def agent (p : Params) (size : LinkSize) (a : Nat) : State := ({ linked size with params := p } : State).agentStore [(a, 9)]

/-- 41_atomic_coproc_load_store.md R205 and 60_exceptions.md R477, by hand: under `RE` in User mode the linked word at
0x2000 is the bytes at 0x2004 to 0x2007, and an agent's store to one of them clears `LLbit` also with the smallest
block; a store to the upper word of a linked doubleword clears it; one to another block does not; and memory that is
not of coherent type does not change. -/
theorem test_agent_stores :
    (agent { coherent with statusRE := true, llBlock := 4 } .word 0x2007).llbit = false ∧
    (agent { coherent with statusRE := true, llBlock := 4 } .word 0x2003).llbit = true ∧
    (agent { coherent with llBlock := 4 } .double 0x2004).llbit = false ∧
    (agent coherent .word 0x2008).llbit = true ∧ Memory.read (agent coherent .word 0x2003).mem 0x2003 = 9 ∧
    Memory.read (agent Config.resetParams .word 0x2003).mem 0x2003 = 0xB3 ∧
    (agent Config.resetParams .word 0x2003).llbit = true := by decide

/-- Unit 1 with 32-bit FGRs. -/
def narrow : State := machineOf { enabled with statusFR := false } [] []

/-- 10_state.md R51 and R52, by hand: a double in a 64-bit FPR, a single and a long in a pair of 32-bit
FGRs. -/
theorem test_fpr :
    (({ narrow with params := enabled } : State).storeFpr 3 .D (0x8091A2B3C4D5E6F7 : BitVec 64)).fgr 3 =
      0x8091A2B3C4D5E6F7 ∧ (narrow.storeFpr 2 .S (0x80000001 : BitVec 32)).valueFprWord 2 = 0x80000001 ∧
    (narrow.storeFpr 2 .L (0x8091A2B3C4D5E6F7 : BitVec 64)).fgr 2 = 0xC4D5E6F7 ∧
    (narrow.storeFpr 2 .L (0x8091A2B3C4D5E6F7 : BitVec 64)).fgr 3 = 0x8091A2B3 := by decide

/-- From 41_atomic_coproc_load_store.md R213 to R216 and R221 to R224, by hand: LWC1, LDC1 with 64-bit and with
32-bit registers, SWC1, SDXC1. -/
theorem test_fpu_transfers :
    completes (exec (.lwc1 4 2 4) (machineOf { enabled with statusFR := false } [(4, 0x2000)] sample)) (fun t =>
      t.fgr 2 == 0xC4D5E6F7) ∧
    completes (exec (.ldc1 4 2 0) (machineOf enabled [(4, 0x2000)] sample)) (fun t =>
      t.fgr 2 == 0x8091A2B3C4D5E6F7) ∧
    completes (exec (.ldxc1 4 5 2) (machineOf { enabled with statusFR := false } [(4, 0x1FF8), (5, 8)] sample)) (fun t =>
      t.fgr 2 == 0xC4D5E6F7 && t.fgr 3 == 0x8091A2B3) ∧
    completes (exec (.swc1 4 2 0) ((machineOf enabled [(4, 0x2000)] []).setFgr 2 0x1122334455667788)) (fun t =>
      Memory.read t.mem 0x2000 == 0x55 && Memory.read t.mem 0x2004 == 0) ∧
    refuses (exec (.lwxc1 4 5 2) (machineOf enabled [(4, 0x3FFFFFFFFFFFFFFC), (5, 4)] [])) .regionBits := by decide

/-- B4. -/
theorem test_alu_immediate :
    writes [(4, 0xFFFFFFFF80000001)] (.addi 4 8 0xFFFF) 8 0xFFFFFFFF80000000 ∧
    raises (exec (.addi 4 8 1) (machine [(4, 0x7FFFFFFF)] [])) .integerOverflow 0x1000 ∧
    writes [(4, 0x7FFFFFFF)] (.addiu 4 8 1) 8 0xFFFFFFFF80000000 ∧
    writes [(4, 0x8000000000000000)] (.slti 4 8 0x8000) 8 1 ∧
    writes [(4, 0xFFFFFFFFFFFFFFFE)] (.sltiu 4 8 0xFFFF) 8 1 ∧
    writes [(4, 0x1234567800FF00FF)] (.andi 4 8 0x8001) 8 1 ∧
    writes [(4, 0xFFFFFFFF00000000)] (.ori 4 8 0xFFFF) 8 0xFFFFFFFF0000FFFF ∧
    writes [(4, 0xFFFFFFFFFFFFFFFF)] (.xori 4 8 0xFFFF) 8 0xFFFFFFFFFFFF0000 ∧
    writes [(4, 0x7FFFFFFF)] (.daddi 4 8 1) 8 0x80000000 ∧
    raises (exec (.daddi 4 8 0xFFFF) (machine [(4, 0x8000000000000000)] [])) .integerOverflow 0x1000 ∧
    writes [(4, 0)] (.daddiu 4 8 0xFFFF) 8 0xFFFFFFFFFFFFFFFF ∧
    writes [] (.lui 8 0x8000) 8 0xFFFFFFFF80000000 ∧ writes [(4, 5)] (.addiu 4 0 1) 0 0 := by decide

/-- B5. -/
theorem test_alu_register :
    writes [(4, 0xFFFFFFFF80000000), (5, 0x7FFFFFFF)] (.add 4 5 8) 8 0xFFFFFFFFFFFFFFFF ∧
    raises (exec (.add 4 4 4) (machine [(4, 0x40000000)] [])) .integerOverflow 0x1000 ∧
    writes [(4, 0x40000000)] (.addu 4 4 4) 4 0xFFFFFFFF80000000 ∧
    raises (exec (.sub 4 5 8) (machine [(4, 0), (5, 0xFFFFFFFF80000000)] [])) .integerOverflow 0x1000 ∧
    writes [(4, 0xFFFFFFFF80000000), (5, 1)] (.subu 4 5 8) 8 0x7FFFFFFF ∧
    writes [(4, 0x7FFFFFFFFFFFFFFF), (5, 1)] (.daddu 4 5 8) 8 0x8000000000000000 ∧
    raises (exec (.dadd 4 5 8) (machine [(4, 0x7FFFFFFFFFFFFFFF), (5, 1)] [])) .integerOverflow 0x1000 ∧
    raises (exec (.dsub 4 5 8) (machine [(4, 0), (5, 0x8000000000000000)] [])) .integerOverflow 0x1000 ∧
    writes [(4, 0x8000000000000000), (5, 1)] (.dsubu 4 5 8) 8 0x7FFFFFFFFFFFFFFF ∧
    writes [(4, 0x8000000000000000), (5, 0x7FFFFFFFFFFFFFFF)] (.slt 4 5 8) 8 1 ∧
    writes [(4, 0x8000000000000000), (5, 0x7FFFFFFFFFFFFFFF)] (.sltu 4 5 8) 8 0 ∧
    writes [(4, 0xFFFF0000FFFF0000), (5, 0x0F0F0F0F0F0F0F0F)] (.and 4 5 8) 8 0x0F0F00000F0F0000 ∧
    writes [(4, 0xFFFF0000FFFF0000), (5, 0x0F0F0F0F0F0F0F0F)] (.or 4 5 8) 8 0xFFFF0F0FFFFF0F0F ∧
    writes [(4, 0xFFFF0000FFFF0000), (5, 0x0F0F0F0F0F0F0F0F)] (.xor 4 5 8) 8 0xF0F00F0FF0F00F0F ∧
    writes [(4, 0xFFFF0000FFFF0000), (5, 0x0F0F0F0F0F0F0F0F)] (.nor 4 5 8) 8 0x0000F0F00000F0F0 := by decide

/-- B6. -/
theorem test_shifts :
    writes [(5, 0x08000001)] (.sll 5 8 4) 8 0xFFFFFFFF80000010 ∧
    writes [(5, 0xFFFFFFFF80000000)] (.srl 5 8 4) 8 0x08000000 ∧
    writes [(5, 0xFFFFFFFF80000000)] (.sra 5 8 4) 8 0xFFFFFFFFF8000000 ∧
    writes [(5, 1), (4, 0x24)] (.sllv 4 5 8) 8 0x10 ∧
    writes [(5, 0xFFFFFFFF80000000), (4, 0x104)] (.srlv 4 5 8) 8 0x08000000 ∧
    writes [(5, 0xFFFFFFFF80000000), (4, 0x3F)] (.srav 4 5 8) 8 0xFFFFFFFFFFFFFFFF ∧
    writes [(5, 0x8000000000000001)] (.dsll 5 8 1) 8 2 ∧
    writes [(5, 0x8000000000000000)] (.dsrl 5 8 31) 8 0x100000000 ∧
    writes [(5, 0x8000000000000000)] (.dsra 5 8 31) 8 0xFFFFFFFF00000000 ∧
    writes [(5, 3)] (.dsll32 5 8 31) 8 0x8000000000000000 ∧
    writes [(5, 0x8000000000000000)] (.dsrl32 5 8 31) 8 1 ∧
    writes [(5, 0x8000000000000000)] (.dsra32 5 8 0) 8 0xFFFFFFFF80000000 ∧
    writes [(5, 1), (4, 0x7F)] (.dsllv 4 5 8) 8 0x8000000000000000 ∧
    writes [(5, 0x8000000000000000), (4, 0x41)] (.dsrlv 4 5 8) 8 0x4000000000000000 ∧
    writes [(5, 0x8000000000000000), (4, 0x3F)] (.dsrav 4 5 8) 8 0xFFFFFFFFFFFFFFFF := by decide

/-- One multiply or divide. -/
def pairs (a b : Word) (i : Instr) (hi lo : Word) : Bool :=
  completes (exec i (machine [(4, a), (5, b)] [])) fun t => t.hi == hi && t.lo == lo && t.hiloFresh

/-- B7. -/
theorem test_multiply_divide :
    pairs 0xFFFFFFFFFFFFFFFE 3 (.mult 4 5) 0xFFFFFFFFFFFFFFFF 0xFFFFFFFFFFFFFFFA ∧
    pairs 0xFFFFFFFFFFFFFFFE 3 (.multu 4 5) 2 0xFFFFFFFFFFFFFFFA ∧
    pairs 0xFFFFFFFFFFFFFFF9 2 (.div 4 5) 0xFFFFFFFFFFFFFFFF 0xFFFFFFFFFFFFFFFD ∧
    pairs 0xFFFFFFFFFFFFFFF9 2 (.divu 4 5) 1 0x7FFFFFFC ∧
    pairs 0x8000000000000000 0xFFFFFFFFFFFFFFFF (.dmult 4 5) 0 0x8000000000000000 ∧
    pairs 0x8000000000000000 2 (.dmultu 4 5) 1 0 ∧
    pairs 7 0xFFFFFFFFFFFFFFFE (.ddiv 4 5) 1 0xFFFFFFFFFFFFFFFD ∧
    pairs 0xFFFFFFFFFFFFFFFF 2 (.ddivu 4 5) 1 0x7FFFFFFFFFFFFFFF := by decide

/-- B7: the moves and the hazard. -/
theorem test_hilo_moves :
    completes (exec (.mfhi 8) { machine [] [] with hi := 0x11, lo := 0x22, hiloFresh := true }) (fun t =>
      t.x 8 == 0x11 && t.hiGuard == 2 && t.loGuard == 0 && !t.hiloFresh) ∧
    completes (exec (.mflo 8) { machine [] [] with hi := 0x11, lo := 0x22, hiGuard := 2 }) (fun t =>
      t.x 8 == 0x22 && t.hiGuard == 1 && t.loGuard == 2) ∧
    completes (exec (.mthi 4) { machine [(4, 0x99)] [] with lo := 5, loGuard := 2 }) (fun t =>
      t.hi == 0x99 && t.lo == 5 && t.loGuard == 1) ∧
    completes (exec (.mtlo 4) { machine [(4, 0x99)] [] with hi := 5 }) (fun t => t.hi == 5 && t.lo == 0x99) ∧
    refuses (exec (.mthi 4) { machine [(4, 0x99)] [] with hiGuard := 1 }) .hiLoHazard ∧
    refuses (exec (.mult 4 5) { machine [] [] with loGuard := 1 }) .hiLoHazard := by decide

/-- One jump or branch. -/
def leaves (regs : List (Reg × Word)) (i : Instr) (d : Delay) (link : Word) : Bool :=
  completes (exec i (machine regs [])) fun t => decide (t.delay = d) && t.x 31 == link && t.pc == 0x1004

/-- B8. -/
theorem test_branches :
    leaves [(4, 1), (5, 1)] (.beq 4 5 3) (.taken 0x1010) 0 ∧ leaves [(4, 1), (5, 2)] (.bne 4 5 3) (.taken 0x1010) 0 ∧
    leaves [(4, 1), (5, 2)] (.beql 4 5 3) .nullify 0 ∧ leaves [(4, 1), (5, 1)] (.bnel 4 5 3) .nullify 0 ∧
    leaves [(4, 0)] (.blez 4 0xFFFE) (.taken 0xFFC) 0 ∧ leaves [(4, 0)] (.bgtz 4 0xFFFE) .notTaken 0 ∧
    leaves [(4, 1)] (.blezl 4 0xFFFE) .nullify 0 ∧ leaves [(4, 1)] (.bgtzl 4 0xFFFE) (.taken 0xFFC) 0 ∧
    leaves [(4, 0)] (.bltz 4 0x7FFF) .notTaken 0 ∧ leaves [(4, 0)] (.bgez 4 0x7FFF) (.taken 0x21000) 0 ∧
    leaves [(4, 0)] (.bltzl 4 0x7FFF) .nullify 0 ∧ leaves [(4, 0)] (.bgezl 4 0x7FFF) (.taken 0x21000) 0 ∧
    leaves [(4, 0)] (.bltzal 4 0x7FFF) .notTaken 0x1008 ∧
    leaves [(4, 0)] (.bgezal 4 0x7FFF) (.taken 0x21000) 0x1008 ∧
    leaves [(4, 0)] (.bltzall 4 0x7FFF) .nullify 0x1008 ∧
    leaves [(4, 0)] (.bgezall 4 0x7FFF) (.taken 0x21000) 0x1008 ∧
    leaves [] (.beq 0 0 0x8000) (.taken 0xFFFFFFFFFFFE1004) 0 := by decide

/-- B8. -/
theorem test_jumps :
    leaves [] (.j 0x100) (.taken 0x400) 0 ∧ leaves [] (.jal 0x3FFFFFF) (.taken 0xFFFFFFC) 0x1008 ∧
    completes (exec (.j 0x3FFFFFF) { machine [] [] with pc := 0x0FFFFFFC }) (fun t =>
      decide (t.delay = .taken 0x1FFFFFFC)) ∧
    leaves [(4, 0x2002)] (.jr 4) (.taken 0x2002) 0 ∧ leaves [(25, 0x4000)] (.jalr 25 31) (.taken 0x4000) 0x1008 ∧
    refuses (exec (.jalr 25 25) (machine [] [])) .jalrSameRegister ∧
    refuses (exec (.bgezal 31 4) (machine [] [])) .linkSourceIs31 ∧
    refuses (exec (.j 0x100) { machine [] [] with delay := .taken 0x3000 }) .branchInDelaySlot := by decide

/-- One trap instruction that traps. -/
def traps (a b : Word) (i : Instr) : Bool := raises (exec i (machine [(4, a), (5, b)] [])) .trap 0x1000

/-- One trap instruction that does not. -/
def passes (a b : Word) (i : Instr) : Bool := completes (exec i (machine [(4, a), (5, b)] [])) fun t => t.x 4 == a

/-- B9. -/
theorem test_traps :
    traps 5 5 (.tge 4 5 0) ∧ passes 0xFFFFFFFFFFFFFFFF 0 (.tge 4 5 0) ∧ traps 0xFFFFFFFFFFFFFFFF 0 (.tgeu 4 5 0) ∧
    passes 0 1 (.tgeu 4 5 0) ∧ traps 0xFFFFFFFFFFFFFFFF 0 (.tlt 4 5 0) ∧ passes 0 0xFFFFFFFFFFFFFFFF (.tlt 4 5 0) ∧
    traps 0 0xFFFFFFFFFFFFFFFF (.tltu 4 5 0) ∧ passes 0xFFFFFFFFFFFFFFFF 0 (.tltu 4 5 0) ∧
    traps 0x8000000000000000 0x8000000000000000 (.teq 4 5 0) ∧ passes 1 2 (.teq 4 5 0) ∧ traps 1 2 (.tne 4 5 0) ∧
    passes 0x100000000 0x100000000 (.tne 4 5 0) ∧ traps 0 0 (.tgei 4 0xFFFF) ∧
    passes 0xFFFFFFFFFFFFFFFE 0 (.tgei 4 0xFFFF) ∧ traps 0xFFFFFFFFFFFFFFFF 0 (.tgeiu 4 0xFFFF) ∧
    passes 0x7FFFFFFFFFFFFFFF 0 (.tgeiu 4 0x8000) ∧ traps 0xFFFFFFFFFFFFFFFF 0 (.tlti 4 0) ∧
    passes 0 0 (.tlti 4 0x8000) ∧ traps 0 0 (.tltiu 4 0xFFFF) ∧ passes 0xFFFFFFFFFFFFFFFF 0 (.tltiu 4 0xFFFF) ∧
    traps 0xFFFFFFFFFFFFFFFF 0 (.teqi 4 0xFFFF) ∧ passes 0xFFFF 0 (.teqi 4 0xFFFF) ∧ passes 0 0 (.tnei 4 0) ∧
    traps 1 0 (.tnei 4 0) := by decide

/-- B9, B10: SYSCALL, BREAK, SYNC, PREF, PREFX. -/
theorem test_system :
    raises (exec (.syscall 0xFFFFF) (machine [] [])) .systemCall 0x1000 ∧
    raises (exec (.brk 0x1C00) (machine [] [])) .breakpoint 0x1000 ∧
    completes (exec (.sync 0) (machine [] [])) (fun t => t.pc == 0x1004) ∧
    refuses (exec (.sync 1) (machine [] [])) .syncStype ∧
    completes (exec (.pref 4 31 3) (machine [(4, 0xFFFFFFFFFFFFFFFF)] [])) (fun t => t.pc == 0x1004) ∧
    raises (exec (.prefx 4 5 0) (machine [] [])) (.coprocessorUnusable 1) 0x1000 := by decide

/-- B10, and 47_coprocessor.md R426 for MOVCI; with `fpuMoves` its move is that of the source (note 26). -/
theorem test_conditional_moves :
    writes [(4, 0x1234), (5, 0x100000000), (8, 0x99)] (.movn 4 5 8) 8 0x1234 ∧
    writes [(4, 0x1234), (5, 0), (8, 0x99)] (.movn 4 5 8) 8 0x99 ∧
    writes [(4, 0x1234), (5, 0), (8, 0x99)] (.movz 4 5 8) 8 0x1234 ∧
    refuses (exec (.movci 4 0 0 8) (machineOf enabled [(4, 0x1234)] [])) .fpuInstruction ∧
    completes (exec (.movci 4 0 0 8) (machineOf withMoves [(4, 0x1234)] [])) (fun t => t.x 8 == 0x1234) ∧
    completes (exec (.movci 4 7 0 8) { machineOf withMoves [(4, 0x1234)] [] with fccHigh := 0x40 }) (fun t => t.x 8 == 0) :=
  by decide

/-- B11: a usable check and a usable coprocessor. -/
theorem test_coprocessor :
    raises (exec (.cop0 1 0x18) (machine [] [])) (.coprocessorUnusable 0) 0x1000 ∧
    raises (exec (.lwc1 4 2 16) (machine [(4, 0x2001)] [])) (.coprocessorUnusable 1) 0x1000 ∧
    refuses (exec (.cop2 1 0) (machineOf enabled [] [])) (.coprocessorOperation 2) := by decide

/-- B1, B9: below its level an instruction raises Reserved Instruction. -/
theorem test_level :
    raises (exec (.ld 4 8 0) (machineOf { Config.resetParams with archLevel := .II } [] [])) .reservedInstruction
      0x1000 ∧
    raises (exec (.teq 4 5 0) (machineOf { Config.resetParams with archLevel := .I } [] [])) .reservedInstruction
      0x1000 := by decide

/-- A word placed where the step fetches is the first instruction after reset (LUI, 42_alu.md R239). -/
theorem test_step_from_reset :
    completes (step (State.reset.withFetchWord 32 0x3C081234)) (fun t =>
      t.x 8 == 0x12340000 && t.pc == 0xFFFFFFFFBFC00004) = true := by decide

/-- B12: an exception in an executed slot, a nullified slot, a misaligned fetch, a fetch of a stored word. -/
theorem test_step_delay_slots :
    (match step ({ machine [] [] with pc := 0x1004, delay := .notTaken }.withFetchWord 32 0x8C080001) with
      | .next t => decide (t.trap = some ⟨.addressError .load 1, 0x1004, true, 0x1000⟩)
      | _ => false) = true ∧
    completes (step { machine [] [] with delay := .nullify }) (fun t => t.pc == 0x1004 && decide (t.delay = .none)) ∧
    raises (step { machine [] [] with pc := 0x2002 }) (.addressError .fetch 0x2002) 0x2002 ∧
    refuses (step { machine [] [] with history := [(0x1003, ⟨.cachedNoncoherent, true⟩)] }) .fetchOfStoredByte := by
  decide

/-- 60_exceptions.md R460: a run that has ended stops, or the platform resumes it. -/
theorem test_step_ended :
    (match step ((machine [] []).takeException .trap) with
      | .fault (.trapOutcome r) => decide (r.exception = .trap)
      | _ => false) = true ∧
    completes (step { (machine [] []).takeException .trap with env := [.resume 0x3000 [.gpr 4 7]] }) (fun t =>
      t.pc == 0x3000 && t.x 4 == 7 && !t.llbit) := by decide

/-- 60_exceptions.md R460: the platform changes `LO`, an FGR and a noncoherent byte that the run has stored, forgets the
store, and resumes. -/
theorem test_step_resumed :
    completes (step { (machine [] []).takeException .trap with
      history := [(0x3000, ⟨.cachedNoncoherent, true⟩)], llbit := true,
      env := [.resume 0x3000 [.lo 5, .cpr 1 2 9, .byte 0x3000 0x12, .remembered 0x3000 none]] }) (fun t =>
        t.lo == 5 && t.fgr 2 == 9 && Memory.read t.mem 0x3000 == 0x12 && decide (t.history = []) && !t.llbit &&
        t.pc == 0x3000 && decide (t.hi = 0)) = true := by decide

/-! ## Witnesses: for each statement with hypotheses, a concrete state and operands that meet them -/

/-- The launch parameters at another level. -/
def atLevel (l : Level) : Params := { Config.resetParams with archLevel := l }

/-- The launch parameters with `RE` set in User mode. -/
def reversed : Params := { Config.resetParams with statusRE := true }

theorem running_machine (p : Params) : Running (machineOf p [] []) := ⟨rfl, rfl, by intro h; cases h⟩

/-- The machine about to fetch a word at 0x1000. -/
def fetching (w : Nat) : State := (machine [] []).withFetchWord 32 w

theorem running_fetching : Running (fetching 0x3C081234) := ⟨rfl, rfl, by intro h; cases h⟩

theorem fetchable_fetching : Fetchable (fetching 0x3C081234) 0x1000 :=
  ⟨by decide, ⟨.cachedNoncoherent, rfl⟩, by decide, by decide⟩

theorem test_witness_StepRunsDecoded :
    Running (fetching 0x3C081234) ∧ Fetchable (fetching 0x3C081234) 0x1000 ∧
    decode ((fetching 0x3C081234).instructionAt 0x1000) = .instr (.lui 8 0x1234) :=
  ⟨running_fetching, fetchable_fetching, by decide⟩

/-- The boundary address of an agent's store is the highest physical one, of coherent type or not. -/
theorem test_witness_EnvironmentActsFirst :
    ({ linked .word with env := [.quiet] } : State).trap = none ∧
    ({ linked .word with env := [.clearLink] } : State).env = [.clearLink] ∧
    ({ linked .word with env := [.clearAndStore [(0, 7)]] } : State).env = [.clearAndStore [(0, 7)]] ∧
    ({ linked .word with env := [.agentStore [(2 ^ 64 - 1, 7)]] } : State).env = [.agentStore [(2 ^ 64 - 1, 7)]] ∧
    (linked .word).link = some ⟨0x2000, .word, 0x2000, false, 0x1000, 0x1000⟩ ∧
    2 ^ 64 - 1 < 2 ^ (linked .word).params.psize ∧ coherentCell coherent (2 ^ 64 - 1) = true ∧
    coherentCell (linked .word).params (2 ^ 64 - 1) = false := by decide

theorem test_witness_EndedRunStopsOrResumes :
    ((machine [] []).takeException .trap).trap = some ⟨.trap, 0x1000, false, 0x1000⟩ ∧
    ((machine [] []).takeException .trap).env = [] ∧
    ({ (machine [] []).takeException .trap with env := [.resume 0x3000 [.byte (2 ^ 64 - 1) 7, .gpr 0 7]] } : State).env =
      .resume 0x3000 [.byte (2 ^ 64 - 1) 7, .gpr 0 7] :: [] ∧
    Memory.wf ((machine [] []).takeException .trap).mem = true ∧
    Assoc.rising ((machine [] []).takeException .trap).history = true ∧
    [.byte (2 ^ 64 - 1) 7, .gpr 0 7] = [] ++ Alteration.byte (2 ^ 64 - 1) 7 :: [.gpr 0 7] ∧
    (Alteration.byte (2 ^ 64 - 1) 7).samePart Config.resetParams (.gpr 0 7) = false := by decide

theorem test_witness_NullifiedSlotSkipped :
    ({ machine [] [] with delay := .nullify } : State).trap = none ∧
    ({ machine [] [] with delay := .nullify } : State).env = [] ∧
    ({ machine [] [] with delay := .nullify } : State).delay = .nullify := by decide

/-- The parameters with no translation, and with a Bus Error at one fetched address. -/
def unmapped : Params := { Config.resetParams with translation := [] }
def failing : Params := { Config.resetParams with busErrors := [⟨0x1000, 1, true, true⟩, ⟨0x2000, 1, true, true⟩] }

theorem test_witness_FetchExceptions :
    Running (machineOf unmapped [] []) ∧ (0x1001#64).toNat % 4 ≠ 0 ∧ (0x1003#64).toNat % 4 ≠ 0 ∧
    (machineOf unmapped [] []).pc.toNat % 4 = 0 ∧
    translate unmapped .fetch 0x1000 = .error (.addressError .fetch 0x1000) ∧
    translate failing .fetch 0x1000 = .ok (0x1000, .cachedNoncoherent) ∧ busErrorAt failing .fetch 0x1000 = true ∧
    busErrorAt Config.resetParams .fetch 0x1000 = false ∧
    (∃ a ∈ fetchCells 0x1000, History.stored [(0x1003, ⟨.cachedNoncoherent, true⟩)] a = true) :=
  ⟨running_machine _, by decide, by decide, by decide, rfl, rfl, by decide, by decide, 0x1003, by decide, by decide⟩

theorem fetchable_word (w : Nat) (h : (fetching w).history = []) (h' : (fetching w).pc = 0x1000)
    (h'' : (fetching w).params = Config.resetParams) : Fetchable (fetching w) 0x1000 :=
  ⟨by rw [h']; decide, ⟨.cachedNoncoherent, by rw [h', h'']; rfl⟩, by rw [h'']; decide, by rw [h]; decide⟩

theorem test_witness_ReservedWordRaises :
    Running (fetching 0x70000000) ∧ Fetchable (fetching 0x70000000) 0x1000 ∧
    decode ((fetching 0x70000000).instructionAt 0x1000) = .reserved :=
  ⟨⟨rfl, rfl, by intro h; cases h⟩, fetchable_word _ rfl rfl rfl, by decide⟩

theorem test_witness_OtherWords :
    Running (fetching 0x0000080F) ∧ Fetchable (fetching 0x0000080F) 0x1000 ∧
    decode ((fetching 0x0000080F).instructionAt 0x1000) = .requiredZero .II ∧
    decode ((fetching 0x4C000020).instructionAt 0x1000) = .cop1xArithmetic ∧
    decode ((fetching 0x4C000002).instructionAt 0x1000) = .cop1xReserved ∧
    (machineOf (atLevel .I) [] []).supports .II = false ∧ (machineOf (atLevel .II) [] []).supports .II = true ∧
    (machineOf (atLevel .III) [] []).supports .IV = false :=
  ⟨⟨rfl, rfl, by intro h; cases h⟩, fetchable_word _ rfl rfl rfl, by decide, by decide, by decide, by decide, by decide,
    by decide⟩

theorem test_witness_LevelGate :
    (machineOf (atLevel .II) [] []).supports (Instr.ld 4 8 0).level = false ∧
    (machineOf (atLevel .III) [] []).supports (Instr.movn 4 5 8).level = false ∧
    (machine [] []).params.archLevel = .IV := by decide

theorem test_witness_BranchInDelaySlotRefused :
    isBranch (.beq 4 5 3) = true ∧ ({ machine [] [] with delay := .notTaken } : State).supports (Instr.beq 4 5 3).level ∧
    ({ machine [] [] with delay := .notTaken } : State).delay = .notTaken ∧
    (∃ target, ({ machine [] [] with delay := .taken 0x3000 } : State).delay = .taken target) :=
  ⟨by decide, by decide, by decide, 0x3000, rfl⟩

theorem test_witness_UnusableUnitRaises :
    unitOf (.lwc1 4 2 16) = some 1 ∧ (machine [] []).supports (Instr.lwc1 4 2 16).level = true ∧
    unitUsable (machine [] []).params 1 = false := by decide

theorem test_witness_CoprocessorOperationsRefused :
    unitUsable enabled 0 = true ∧ unitUsable enabled 1 = true ∧ unitUsable enabled 2 = true := by decide

/-- The state after a MIPS I load of `x[8]`. -/
def loading : State := { machineOf (atLevel .I) [(4, 0x2000)] [] with loadDelay := some ⟨8, false⟩ }

/-- A load that sets the slot; a source and a merge that are refused; and the merge of LWL with what LWR loaded. -/
theorem test_witness_LoadDelaySlotRefused :
    (∃ t, loading.trap = none ∧ exec (.lw 4 9 0) loading = .next t ∧ t.trap = none ∧
      loading.params.archLevel = .I ∧ loadedBy (.lw 4 9 0) = some ⟨9, false⟩) ∧
    loading.loadDelay = some ⟨8, false⟩ ∧ (8 : Reg) ≠ 0#5 ∧ (8 : Reg) ∈ sourcesOf (.beq 8 5 1) ∧
    isBranch (.beq 8 5 1) = true ∧ loading.delay = .none ∧ unitOf (.beq 8 5 1) = none ∧
    mergedBy loading (.lwl 4 8 1) = some 8 ∧
    (∃ t, MayFollow { loading with loadDelay := some ⟨8, true⟩ } (.lwl 4 8 1) ∧
      exec (.lwl 4 8 1) { loading with loadDelay := none } = .next t ∧ t.trap = none) :=
  ⟨⟨_, rfl, rfl, rfl, rfl, rfl⟩, rfl, by decide, by decide, rfl, rfl, rfl, by decide,
    ⟨_, fun d h => (Option.some.inj h) ▸ ⟨by decide, fun _ => rfl⟩, rfl, rfl⟩⟩

theorem test_witness_ExceptionsArePrecise :
    (machine [] []).trap = none ∧ exec (.syscall 0) (machine [] []) = .next ((machine [] []).takeException .systemCall) ∧
    ((machine [] []).takeException .systemCall).trap ≠ none := ⟨rfl, rfl, by decide⟩

/-- Two word values whose sum is one above the greatest. -/
def overflowing : State := machine [(4, 0x7FFFFFFF), (5, 1)] []

theorem test_witness_OnlySumsOverflow :
    overflowing.trap = none ∧ exec (.add 4 5 8) overflowing = .next (overflowing.takeException .integerOverflow) ∧
    (overflowing.takeException .integerOverflow).trap = some ⟨.integerOverflow, 0x1000, false, 0x1000⟩ :=
  ⟨rfl, rfl, rfl⟩

/-- LUI in the slot of a taken branch, in that of a branch not taken, and elsewhere. -/
theorem test_witness_PcFollowsDelay :
    (∃ t, exec (.lui 8 1) { machine [] [] with delay := .taken 0x3000 } = .next t ∧ t.trap = none) ∧
    (∃ t, exec (.lui 8 1) { machine [] [] with delay := .notTaken } = .next t ∧ t.trap = none) ∧
    (∃ t, exec (.lui 8 1) (machine [] []) = .next t ∧ t.trap = none) ∧ isBranch (.lui 8 1) = false :=
  ⟨⟨_, rfl, rfl⟩, ⟨_, rfl, rfl⟩, ⟨_, rfl, rfl⟩, rfl⟩

theorem test_witness_OnlyMulDivWriteHiLo :
    (∃ t, exec (.mfhi 8) (machine [] []) = .next t) ∧ writesHiLo (.mfhi 8) = false := ⟨⟨_, rfl⟩, rfl⟩

theorem test_witness_OnlyStoresChangeMemory :
    (∃ t, exec (.lui 8 1) (machine [] sample) = .next t) ∧ isStore (.lui 8 1) = false ∧
    accessOf (machine [] sample) (.lui 8 1) = none := ⟨⟨_, rfl⟩, rfl, rfl⟩

/-- An instruction that accesses no memory, and one that does. -/
theorem test_witness_OnlyLinkedInstructionsChangeLink :
    (∃ t, exec (.lui 8 1) (linked .word) = .next t ∧ t.trap = none) ∧ isLinked (.lui 8 1) = false ∧
    (∃ t, exec (.lw 4 9 0) (linked .word) = .next t ∧ t.trap = none) ∧ isLinked (.lw 4 9 0) = false ∧
    (linked .word).trap = none := ⟨⟨_, rfl, rfl⟩, rfl, ⟨_, rfl, rfl⟩, rfl, rfl⟩

/-- The invariant holds with a byte at the highest physical address, a link and both guards at their greatest. -/
theorem test_witness_StepKeepsInvariant :
    ({ linked .word with mem := [(2 ^ 64 - 1, 7)], hiGuard := 2, loGuard := 2, delay := .nullify } : State).Inv ∧
    ∃ t, step ({ linked .word with mem := [(2 ^ 64 - 1, 7)], hiGuard := 2, loGuard := 2, delay := .nullify } : State) =
      .next t :=
  ⟨⟨by decide, by decide, by decide, by decide, by decide, by decide, by decide, by decide, by decide, by decide⟩,
    _, rfl⟩

theorem test_witness_StepKeepsLaunchParameters :
    ∃ t, step ({ machine [] [] with delay := .nullify } : State) = .next t := ⟨_, rfl⟩

/-- A value is a word value, by evaluation. -/
def isWord (v : Word) : Bool := v.extractLsb' 31 33 == 0#33 || v.extractLsb' 31 33 == BitVec.allOnes 33

theorem isWordValue_iff (v : Word) : IsWordValue v ↔ isWord v = true := by simp [IsWordValue, isWord]

/-- The greatest and the least word value; their sums with 1 and -1 overflow, with 0 they do not. -/
theorem test_witness_WordSums :
    overflowing.settled [4, 5] = true ∧ IsWordValue (overflowing.x 4) ∧ IsWordValue (overflowing.x 5) ∧
    IsWordValue ((machine [(4, 0xFFFFFFFF80000000), (5, 0xFFFFFFFFFFFFFFFF)] []).x 4) ∧
    IsWordValue ((machine [(4, 0xFFFFFFFF80000000), (5, 0xFFFFFFFFFFFFFFFF)] []).x 5) := by
  simp only [isWordValue_iff]; decide

theorem test_witness_WordModuloSums :
    overflowing.settled [4, 5] = true ∧ IsWordValue (overflowing.x 4) ∧ IsWordValue (overflowing.x 5) := by
  simp only [isWordValue_iff]; decide

/-- The least positive value that is no word value. -/
def wide : State := machine [(4, 0x80000000), (5, 0x80000000)] []

theorem test_witness_NonWordOperandsRun :
    wide.settled [4, 5] = true ∧ ¬ IsWordValue (wide.x 4) ∧ ¬ IsWordValue (wide.x 5) ∧ wide.unguarded = true := by
  simp only [isWordValue_iff]; decide

theorem test_witness_DoubleSums :
    (machineOf (atLevel .III) [(4, 0x7FFFFFFFFFFFFFFF), (5, 1)] []).supports .III = true ∧
    (machineOf (atLevel .II) [] []).supports .III = false := by decide

theorem test_witness_Comparisons : (machine [(4, 0x8000000000000000)] []).settled [4, 5] = true := by decide

theorem test_witness_LogicResults : (machine [(4, 0xFFFF0000FFFF0000)] []).settled [4, 5] = true := by decide

theorem test_witness_WordShifts :
    (machine [(4, 0xFFFFFFFF80000000)] []).settled [5, 4] = true ∧
    IsWordValue ((machine [(4, 0xFFFFFFFF80000000)] []).x 4) := by
  simp only [isWordValue_iff]; decide

/-- Each of the nine forms, with its amount at the top of its range. -/
theorem test_witness_DoubleShifts :
    (machineOf (atLevel .III) [(4, 0xFFFFFFFFFFFFFFFF)] []).supports .III = true ∧ (31#5).toNat = 31 ∧
    32 + (31#5).toNat = 63 ∧ ((machine [(4, 0xFFFFFFFFFFFFFFFF)] []).x 4).toNat % 64 = 63 ∧
    (machineOf (atLevel .II) [] []).supports .III = false := by decide

theorem test_witness_Products :
    overflowing.unguarded = true ∧ overflowing.settled [4, 5] = true ∧ IsWordValue (overflowing.x 4) ∧
    IsWordValue (overflowing.x 5) ∧ overflowing.supports .III = true := by
  simp only [isWordValue_iff]; decide

/-- The least dividend by 1, and by -1 in the unsigned forms. -/
theorem test_witness_Quotients :
    (machine [(4, 0xFFFFFFFF80000000), (5, 1)] []).unguarded = true ∧
    (machine [(4, 0xFFFFFFFF80000000), (5, 1)] []).x 5 ≠ 0#64 ∧
    (machine [(4, 0xFFFFFFFF80000000), (5, 1)] []).settled [4, 5] = true ∧
    IsWordValue ((machine [(4, 0xFFFFFFFF80000000), (5, 1)] []).x 4) ∧
    IsWordValue ((machine [(4, 0xFFFFFFFF80000000), (5, 1)] []).x 5) ∧
    ((machine [(4, 0xFFFFFFFF80000000), (5, 1)] []).x 5).toInt ≠ -1 ∧
    ((machine [(4, 0x8000000000000000), (5, 1)] []).x 5).toInt ≠ -1 ∧
    (machine [(4, 0x8000000000000000), (5, 1)] []).supports .III = true := by
  simp only [isWordValue_iff]; decide

/-- The word forms also at MIPS I. -/
theorem test_witness_OpenDivisionsComplete :
    (machineOf (atLevel .I) [(4, 5)] []).settled [4, 5] = true ∧ (machineOf (atLevel .I) [(4, 5)] []).unguarded = true ∧
    (machineOf (atLevel .I) [(4, 5)] []).x 5 = 0#64 ∧
    (machine [(4, 5)] []).settled [4, 5] = true ∧ (machine [(4, 5)] []).unguarded = true ∧
    (machine [(4, 5)] []).supports .III = true ∧ (machine [(4, 5)] []).x 5 = 0#64 ∧
    ((machine [(4, 0xFFFFFFFF80000000), (5, 0xFFFFFFFFFFFFFFFF)] []).x 4).toInt = -2 ^ 31 ∧
    ((machine [(4, 0x8000000000000000), (5, 0xFFFFFFFFFFFFFFFF)] []).x 4).toInt = -2 ^ 63 ∧
    ((machine [(4, 0x8000000000000000), (5, 0xFFFFFFFFFFFFFFFF)] []).x 5).toInt = -1 := by decide

theorem test_witness_HiLoMoves :
    ({ machine [(4, 7)] [] with loGuard := 2 } : State).settled [4] = true ∧
    ({ machine [(4, 7)] [] with loGuard := 2 } : State).hiGuard = 0 ∧
    ({ machine [(4, 7)] [] with hiGuard := 2 } : State).loGuard = 0 ∧ (machine [(4, 7)] []).hiloFresh = false := by decide

theorem test_witness_HiLoHazardRefused :
    ({ machine [] [] with hiGuard := 1 } : State).settled [4, 5] = true ∧
    ({ machine [] [] with hiGuard := 1 } : State).supports (Instr.ddiv 4 5).level = true ∧
    ({ machineOf (atLevel .I) [] [] with hiGuard := 1 } : State).supports (Instr.div 4 5).level = true ∧
    0 < ({ machine [] [] with hiGuard := 1 } : State).hiGuard ∧
    0 < ({ machine [] [] with loGuard := 1 } : State).loGuard := by decide

/-- The sample with its base register, and an old value to merge with. -/
def ready : State := machine [(4, 0x2000), (8, 0x1122334455667788)] sample

/-- The sample under reverse-endian User mode. -/
def readyReversed : State := machineOf reversed [(4, 0x2000), (8, 0x1122334455667788)] sample

/-- A data access of cells of the sample can be made. -/
theorem accessible_ready (kind : AccessKind) (v : Word) (pa : Nat) (cells : List Nat)
    (h : translate ready.params kind v = .ok (pa, .cachedNoncoherent)) :
    Accessible ready kind v pa .cachedNoncoherent cells :=
  ⟨h, by simp [ready, machine, withRegs, State.setX, State.reset, History.mixed, Assoc.find], by
    simp [ready, machine, withRegs, State.setX, State.reset, Config.resetParams, busErrorAt]⟩

/-- Each width at the end of its aligned doubleword. -/
theorem test_witness_AlignedLoads :
    ready.settled [4] = true ∧ ready.supports .III = true ∧
    Accessible ready .load (ready.x 4 + sext64 7#16) 0x2007 .cachedNoncoherent (dataCells ready.params 0x2007 1) ∧
    (ready.x 4 + sext64 6#16).toNat % 2 = 0 ∧
    Accessible ready .load (ready.x 4 + sext64 6#16) 0x2006 .cachedNoncoherent (dataCells ready.params 0x2006 2) ∧
    (ready.x 4 + sext64 4#16).toNat % 4 = 0 ∧
    Accessible ready .load (ready.x 4 + sext64 4#16) 0x2004 .cachedNoncoherent (dataCells ready.params 0x2004 4) ∧
    (ready.x 4 + sext64 0#16).toNat % 8 = 0 ∧
    Accessible ready .load (ready.x 4 + sext64 0#16) 0x2000 .cachedNoncoherent (dataCells ready.params 0x2000 8) :=
  ⟨by decide, by decide, accessible_ready _ _ _ _ rfl, by decide, accessible_ready _ _ _ _ rfl, by decide,
    accessible_ready _ _ _ _ rfl, by decide, accessible_ready _ _ _ _ rfl⟩

theorem test_witness_AlignedStores :
    ready.settled [4, 8] = true ∧ Memory.wf ready.mem = true ∧ ready.supports .III = true ∧
    Accessible ready .store (ready.x 4 + sext64 7#16) 0x2007 .cachedNoncoherent (dataCells ready.params 0x2007 1) ∧
    Accessible ready .store (ready.x 4 + sext64 6#16) 0x2006 .cachedNoncoherent (dataCells ready.params 0x2006 2) ∧
    Accessible ready .store (ready.x 4 + sext64 4#16) 0x2004 .cachedNoncoherent (dataCells ready.params 0x2004 4) ∧
    Accessible ready .store (ready.x 4 + sext64 0#16) 0x2000 .cachedNoncoherent (dataCells ready.params 0x2000 8) :=
  ⟨by decide, by decide, by decide, accessible_ready _ _ _ _ rfl, accessible_ready _ _ _ _ rfl,
    accessible_ready _ _ _ _ rfl, accessible_ready _ _ _ _ rfl⟩

/-- The machine with every unit enabled, and with index registers. -/
def readyUnits : State := machineOf enabled [(4, 0x2000), (5, 4), (6, 0), (7, 1)] sample

/-- No register is in the load delay slot. -/
theorem mayFollow_of_none {s : State} (h : s.loadDelay = none) (i : Instr) : MayFollow s i := by
  intro d hd; rw [h] at hd; cases hd

/-- What a CPU load or store needs to reach its access. -/
theorem ready_of {s : State} {i : Instr} (h : s.supports i.level = true) (h1 : unitOf i = none)
    (h2 : indexedBy i = none) (h3 : s.loadDelay = none) : Ready s i :=
  ⟨h, (by intro z hz; rw [h1] at hz; cases hz), mayFollow_of_none h3 _, (by intro b x hx; rw [h2] at hx; cases hx)⟩

/-- Every load and store reaches its access with every unit enabled, in its region. -/
theorem ready_units (i : Instr) (h : readyUnits.supports i.level = true)
    (h1 : ∀ base index, indexedBy i = some (base, index) →
      (readyUnits.x base + readyUnits.x index).extractLsb' 62 2 = (readyUnits.x base).extractLsb' 62 2) :
    Ready readyUnits i :=
  ⟨h, fun z _ => (by decide : ∀ z, unitUsable readyUnits.params z = true) z, mayFollow_of_none rfl _, h1⟩

/-- The least and the greatest misalignment of each width: the CPU forms at the launch of the reset state and at MIPS
I, the coprocessor and the indexed forms with their units enabled. -/
theorem test_witness_MisalignedAccessesRaise :
    Ready ready (.lh 4 8 1) ∧ (ready.x 4 + sext64 1#16).toNat % 2 ≠ 0 ∧
    Ready (machineOf (atLevel .I) [(4, 0x2000)] []) (.sw 4 8 3) ∧ (ready.x 4 + sext64 1#16).toNat % 4 ≠ 0 ∧
    (ready.x 4 + sext64 3#16).toNat % 4 ≠ 0 ∧ Ready ready (.ld 4 8 4) ∧ (ready.x 4 + sext64 1#16).toNat % 8 ≠ 0 ∧
    (ready.x 4 + sext64 4#16).toNat % 8 ≠ 0 ∧ (ready.x 4 + sext64 7#16).toNat % 8 ≠ 0 ∧
    Ready readyUnits (.lwc2 4 8 1) ∧ Ready readyUnits (.lwxc1 4 7 8) ∧
    (readyUnits.x 4 + readyUnits.x 7).toNat % 4 ≠ 0 ∧ Ready readyUnits (.sdxc1 4 5 8) ∧
    (readyUnits.x 4 + readyUnits.x 5).toNat % 8 ≠ 0 :=
  ⟨ready_of rfl rfl rfl rfl, by decide, ready_of rfl rfl rfl rfl,
    by decide, by decide, ready_of rfl rfl rfl rfl, by decide, by decide, by decide,
    ready_units _ rfl (by intro b x h; cases h), ready_units _ rfl (by intro b x h; cases h; decide), by decide,
    ready_units _ rfl (by intro b x h; cases h; decide), by decide⟩

/-- The sequence that a linked load at 0x1000 began ends within its window. -/
theorem guaranteed_linked (size : LinkSize) (pc : Word) (h : 0x1000 ≤ pc.toNat) (h' : pc.toNat + 4 ≤ 0x1000 + 2048) :
    Guaranteed { linked size with pc := pc } 0x2000 size ⟨0x2000, size, 0x2000, false, 0x1000, 0x1000⟩ :=
  ⟨rfl, rfl, rfl, rfl, rfl, (by decide : (0x1000#64).toNat + 4 ≤ (0x1000#64).toNat + 2048), h',
    Nat.le_trans (Nat.add_le_add_right h 4) (Nat.add_le_add_left (by decide) _)⟩

/-- Each clause: misaligned (and there the translation also fails), not translated, of mixed types, a Bus Error; and a
conditional store that is certain to store. -/
theorem test_witness_DataAccessExceptions :
    accessOf { ready with params := unmapped } (.lh 4 8 1) = some ⟨.load, 0x2001, 2, fun pa => dataCells unmapped pa 2⟩ ∧
    (0x2001#64).toNat % 2 ≠ 0 ∧ Ready { ready with params := unmapped } (.lh 4 8 1) ∧
    accessOf { ready with params := unmapped } (.sw 4 8 0) = some ⟨.store, 0x2000, 4, fun pa => dataCells unmapped pa 4⟩ ∧
    (0x2000#64).toNat % 4 = 0 ∧ Ready { ready with params := unmapped } (.sw 4 8 0) ∧
    translate unmapped .store 0x2000 = .error (.addressError .store 0x2000) ∧
    accessOf ready (.lb 4 8 0) = some ⟨.load, 0x2000, 1, fun pa => dataCells ready.params pa 1⟩ ∧
    translate ready.params .load 0x2000 = .ok (0x2000, .cachedNoncoherent) ∧ isLinked (.lb 4 8 0) = false ∧
    conditionalSize (.lb 4 8 0) = none ∧ Ready { ready with history := [(0x2000, ⟨.uncached, false⟩)] } (.lb 4 8 0) ∧
    (∃ c ∈ dataCells ready.params 0x2000 1, ∃ n, Assoc.find [(0x2000, (⟨.uncached, false⟩ : Note))] c = some n ∧
      n.type ≠ .cachedNoncoherent) ∧
    Ready { ready with params := failing } (.lb 4 8 0) ∧
    translate failing .load 0x2000 = .ok (0x2000, .cachedNoncoherent) ∧ busErrorAt failing .load 0x2000 = true ∧
    Ready (linked .word) (.sc 4 8 0) ∧ conditionalSize (.sc 4 8 0) = some .word ∧
    Guaranteed (linked .word) 0x2000 .word ⟨0x2000, .word, 0x2000, false, 0x1000, 0x1000⟩ :=
  ⟨rfl, by decide, ready_of rfl rfl rfl rfl, rfl, by decide,
    ready_of rfl rfl rfl rfl, rfl, rfl, rfl, rfl, rfl,
    ready_of rfl rfl rfl rfl,
    ⟨0x2000, by decide, _, rfl, by decide⟩,
    ready_of rfl rfl rfl rfl, rfl, by decide,
    ready_of rfl rfl rfl rfl, rfl,
    guaranteed_linked .word 0x1000 (by decide) (by decide)⟩

/-- Both ends of the aligned word; also at MIPS I. -/
theorem test_witness_UnalignedWordLoads :
    MayFollow ready (.lwl 4 8 3) ∧ MayFollow ready (.lwr 4 8 0) ∧ 0 = (ready.x 4 + sext64 0#16).toNat % 4 ∧
    3 = (ready.x 4 + sext64 3#16).toNat % 4 ∧ 3 ≤ ready.params.psize ∧
    MayFollow { loading with loadDelay := some ⟨8, true⟩ } (.lwl 4 8 1) ∧
    Accessible ready .load (ready.x 4 + sext64 3#16) 0x2003 .cachedNoncoherent
      (selectedCells ready.params .left (ready.x 4 + sext64 3#16) 0x2003 4) ∧
    Accessible ready .load (ready.x 4 + sext64 0#16) 0x2000 .cachedNoncoherent
      (selectedCells ready.params .right (ready.x 4 + sext64 0#16) 0x2000 4) :=
  ⟨mayFollow_of_none rfl _, mayFollow_of_none rfl _, by decide, by decide, by decide,
    fun d h => (Option.some.inj h) ▸ ⟨by decide, fun _ => rfl⟩, accessible_ready _ _ _ _ rfl, accessible_ready _ _ _ _ rfl⟩

theorem test_witness_UnalignedDoubleLoads :
    ready.supports .III = true ∧ 0 = (ready.x 4 + sext64 0#16).toNat % 8 ∧ 7 = (ready.x 4 + sext64 7#16).toNat % 8 ∧
    3 ≤ ready.params.psize ∧
    Accessible ready .load (ready.x 4 + sext64 7#16) 0x2007 .cachedNoncoherent
      (selectedCells ready.params .left (ready.x 4 + sext64 7#16) 0x2007 8) ∧
    Accessible ready .load (ready.x 4 + sext64 0#16) 0x2000 .cachedNoncoherent
      (selectedCells ready.params .right (ready.x 4 + sext64 0#16) 0x2000 8) :=
  ⟨by decide, by decide, by decide, by decide, accessible_ready _ _ _ _ rfl, accessible_ready _ _ _ _ rfl⟩

/-- Also under reverse-endian User mode. -/
theorem test_witness_UnalignedStores :
    ready.settled [4, 8] = true ∧ ready.supports (Instr.sdl 4 8 7).level = true ∧
    (machineOf (atLevel .I) [] []).supports (Instr.swl 4 8 3).level = true ∧ Memory.wf ready.mem = true ∧
    3 ≤ ready.params.psize ∧ 3 = (ready.x 4 + sext64 3#16).toNat % 4 ∧ 7 = (ready.x 4 + sext64 7#16).toNat % 8 ∧
    Accessible ready .store (ready.x 4 + sext64 3#16) 0x2003 .cachedNoncoherent
      (selectedCells ready.params .left (ready.x 4 + sext64 3#16) 0x2003 4) ∧
    Accessible ready .store (ready.x 4 + sext64 7#16) 0x2007 .cachedNoncoherent
      (selectedCells ready.params .right (ready.x 4 + sext64 7#16) 0x2007 8) ∧
    Accessible readyReversed .store (ready.x 4 + sext64 3#16) 0x2003 .cachedNoncoherent
      (selectedCells readyReversed.params .left (ready.x 4 + sext64 3#16) 0x2003 4) :=
  ⟨by decide, by decide, by decide, by decide, by decide, by decide, by decide, accessible_ready _ _ _ _ rfl,
    accessible_ready _ _ _ _ rfl, ⟨rfl, by decide, by decide⟩⟩

/-- The pair at 0x2001 runs, in both byte orders (95_test_vectors.md B2). -/
theorem test_witness_UnalignedWordPair :
    (∃ t u, ready.trap = none ∧ (4 : Reg) ≠ 8 ∧ (8 : Reg) ≠ 0#5 ∧ 3 ≤ ready.params.psize ∧
      translate ready.params .load (ready.x 4 + sext64 1#16) = .ok (0x2001, .cachedNoncoherent) ∧
      translate ready.params .load (ready.x 4 + sext64 (1#16 + 3#16)) = .ok (0x2001 + 3, .cachedNoncoherent) ∧
      t.trap = none ∧ u.trap = none ∧ bigEndianCPU ready.params = true ∧
      exec (.lwl 4 8 1) ready = .next t ∧ exec (.lwr 4 8 (1#16 + 3#16)) t = .next u) ∧
    (∃ t u, t.trap = none ∧ u.trap = none ∧ bigEndianCPU readyReversed.params = false ∧
      exec (.lwl 4 8 (1#16 + 3#16)) readyReversed = .next t ∧ exec (.lwr 4 8 1) t = .next u) :=
  ⟨⟨_, _, rfl, by decide, by decide, by decide, rfl, rfl, rfl, rfl, by decide, rfl, rfl⟩,
    ⟨_, _, rfl, rfl, by decide, rfl, rfl⟩⟩

theorem test_witness_LinkedLoads :
    AccessType.cachedNoncoherent ≠ .uncached ∧ (ready.x 4 + sext64 4#16).toNat % 4 = 0 ∧ ready.supports .II = true ∧
    Accessible ready .load (ready.x 4 + sext64 4#16) 0x2004 .cachedNoncoherent (dataCells ready.params 0x2004 4) ∧
    (ready.x 4 + sext64 0#16).toNat % 8 = 0 ∧ ready.supports .III = true ∧
    Accessible ready .load (ready.x 4 + sext64 0#16) 0x2000 .cachedNoncoherent (dataCells ready.params 0x2000 8) :=
  ⟨by decide, by decide, by decide, accessible_ready _ _ _ _ rfl, by decide, by decide, accessible_ready _ _ _ _ rfl⟩

/-- A conditional store at the last place of the window: its instruction ends 2048 bytes after the linked load. -/
theorem test_witness_ConditionalStoresSucceed :
    AccessType.cachedNoncoherent ≠ .uncached ∧ Memory.wf (linked .word).mem = true ∧
    Guaranteed { linked .word with pc := 0x17FC } 0x2000 .word ⟨0x2000, .word, 0x2000, false, 0x1000, 0x1000⟩ ∧
    Guaranteed { linked .double with pc := 0x17FC } 0x2000 .double ⟨0x2000, .double, 0x2000, false, 0x1000, 0x1000⟩ ∧
    (0x2000#64) = (linked .word).x 4 + sext64 0#16 ∧ ((linked .word).x 4 + sext64 0#16).toNat % 4 = 0 ∧
    ({ linked .word with params := atLevel .II } : State).supports .II = true ∧
    ((linked .double).x 4 + sext64 0#16).toNat % 8 = 0 ∧ (linked .double).supports .III = true ∧
    Accessible (linked .word) .store 0x2000 0x2000 .cachedNoncoherent (dataCells (linked .word).params 0x2000 4) ∧
    Accessible (linked .double) .store 0x2000 0x2000 .cachedNoncoherent (dataCells (linked .double).params 0x2000 8) :=
  ⟨by decide, by decide, guaranteed_linked .word 0x17FC (by decide) (by decide),
    guaranteed_linked .double 0x17FC (by decide) (by decide), by decide, by decide, by decide, by decide, by decide,
    ⟨rfl, by decide, by decide⟩, ⟨rfl, by decide, by decide⟩⟩

/-- SC at MIPS II, at a word that is no doubleword's address; SCD. -/
theorem test_witness_ConditionalStoresFail :
    AccessType.cachedNoncoherent ≠ .uncached ∧
    translate (atLevel .II) .store ((linked .word).x 4 + sext64 4#16) = .ok (0x2004, .cachedNoncoherent) ∧
    (machineOf (atLevel .II) [] []).supports (Instr.sc 4 8 4).level = true ∧
    (0x2004#64) = (linked .word).x 4 + sext64 4#16 ∧ (0x2004#64).toNat % 4 = 0 ∧
    ({ linked .word with llbit := false, link := some ⟨0x2004, .word, 0x2004, false, 0x1000, 0x1000⟩ } : State).llbit =
      false ∧
    translate (linked .double).params .store ((linked .double).x 4 + sext64 0#16) = .ok (0x2000, .cachedNoncoherent) ∧
    (linked .double).supports (Instr.scd 4 8 0).level = true ∧ (0x2000#64).toNat % 8 = 0 ∧
    ({ linked .double with llbit := false } : State).link = some ⟨0x2000, .double, 0x2000, false, 0x1000, 0x1000⟩ :=
  ⟨by decide, rfl, by decide, by decide, by decide, by decide, rfl, by decide, by decide, by decide⟩

/-- No link, a link of the other size, and an uncached location; the word forms at MIPS II and at a word that is no
doubleword's address. -/
theorem test_witness_LinkedAccessesRefused :
    (ready.x 4 + sext64 4#16).toNat % LinkSize.word.bytes = 0 ∧
    (machineOf (atLevel .II) [] []).supports (Instr.sc 4 8 4).level = true ∧
    (machineOf (atLevel .II) [] []).supports (Instr.ll 4 8 4).level = true ∧
    translate (atLevel .II) .store (ready.x 4 + sext64 4#16) = .ok (0x2004, .cachedNoncoherent) ∧
    (ready.x 4 + sext64 0#16).toNat % LinkSize.double.bytes = 0 ∧ ready.supports (Instr.scd 4 8 0).level = true ∧
    translate ready.params .store (ready.x 4 + sext64 0#16) = .ok (0x2000, .cachedNoncoherent) ∧ ready.link = none ∧
    (∀ l, (linked .word).link = some l → l.vaddr ≠ (linked .word).x 4 + sext64 0#16 ∨ l.size ≠ .double) ∧
    (∃ p : Params, translate p .store (ready.x 4 + sext64 0#16) = .ok (0x2000, .uncached) ∧
      translate p .load (ready.x 4 + sext64 0#16) = .ok (0x2000, .uncached)) :=
  ⟨by decide, by decide, by decide, rfl, by decide, by decide, rfl, by decide, by intro l h; cases h; decide,
    { Config.resetParams with translation := [⟨0, 2 ^ 64, true, true, true, .mapped 0 .uncached⟩] }, rfl, rfl⟩

theorem accessible_units (kind : AccessKind) (v : Word) (pa : Nat) (cells : List Nat)
    (h : translate readyUnits.params kind v = .ok (pa, .cachedNoncoherent)) :
    Accessible readyUnits kind v pa .cachedNoncoherent cells :=
  ⟨h, by simp [readyUnits, machineOf, machine, withRegs, State.setX, State.reset, History.mixed, Assoc.find], by
    simp [readyUnits, machineOf, enabled, Config.resetParams, busErrorAt]⟩

theorem test_witness_FpuLoads :
    readyUnits.settled [4] = true ∧ readyUnits.supports (Instr.ldxc1 4 6 2).level = true ∧
    ({ readyUnits with params := { enabled with archLevel := .I } } : State).supports (Instr.lwc1 4 2 4).level = true ∧
    unitUsable readyUnits.params 1 = true ∧ (0x2004#64) = readyUnits.x 4 + sext64 4#16 ∧ (0x2004#64) = readyUnits.x 4 + readyUnits.x 5 ∧
    (0x2004#64).extractLsb' 62 2 = (readyUnits.x 4).extractLsb' 62 2 ∧ (0x2004#64).toNat % 4 = 0 ∧
    (0x2000#64) = readyUnits.x 4 + readyUnits.x 6 ∧ (0x2000#64).toNat % 8 = 0 ∧
    Accessible readyUnits .load 0x2004 0x2004 .cachedNoncoherent (dataCells readyUnits.params 0x2004 4) ∧
    Accessible readyUnits .load 0x2000 0x2000 .cachedNoncoherent (dataCells readyUnits.params 0x2000 8) :=
  ⟨by decide, by decide, by decide, by decide, by decide, by decide, by decide, by decide, by decide, by decide,
    accessible_units _ _ _ _ rfl, accessible_units _ _ _ _ rfl⟩

theorem test_witness_FpuStores :
    readyUnits.settled [4] = true ∧ readyUnits.supports (Instr.sdxc1 4 6 2).level = true ∧
    ({ readyUnits with params := { enabled with archLevel := .I } } : State).supports (Instr.swc1 4 2 4).level = true ∧
    unitUsable readyUnits.params 1 = true ∧ Memory.wf readyUnits.mem = true ∧ (0x2004#64) = readyUnits.x 4 + readyUnits.x 5 ∧
    Accessible readyUnits .store 0x2004 0x2004 .cachedNoncoherent (dataCells readyUnits.params 0x2004 4) ∧
    Accessible readyUnits .store 0x2000 0x2000 .cachedNoncoherent (dataCells readyUnits.params 0x2000 8) :=
  ⟨by decide, by decide, by decide, by decide, by decide, by decide, accessible_units _ _ _ _ rfl,
    accessible_units _ _ _ _ rfl⟩

theorem test_witness_UnitTwoTransfers :
    readyUnits.settled [4] = true ∧ readyUnits.supports .II = true ∧ unitUsable readyUnits.params 2 = true ∧
    Memory.wf readyUnits.mem = true ∧ (readyUnits.x 4 + sext64 4#16).toNat % 4 = 0 ∧
    (readyUnits.x 4 + sext64 0#16).toNat % 8 = 0 ∧
    Accessible readyUnits .load (readyUnits.x 4 + sext64 4#16) 0x2004 .cachedNoncoherent
      (dataCells readyUnits.params 0x2004 4) ∧
    Accessible readyUnits .store (readyUnits.x 4 + sext64 0#16) 0x2000 .cachedNoncoherent
      (dataCells readyUnits.params 0x2000 8) :=
  ⟨by decide, by decide, by decide, by decide, by decide, by decide, accessible_units _ _ _ _ rfl,
    accessible_units _ _ _ _ rfl⟩

/-- The last address of a region, and the next one, aligned and not. -/
theorem test_witness_IndexedRegionRefused :
    (machineOf enabled [(4, 0x3FFFFFFFFFFFFFFF), (5, 1)] []).supports .IV = true ∧ unitUsable enabled 1 = true ∧
    ((machineOf enabled [(4, 0x3FFFFFFFFFFFFFFF), (5, 1)] []).x 4 +
      (machineOf enabled [(4, 0x3FFFFFFFFFFFFFFF), (5, 1)] []).x 5).extractLsb' 62 2 ≠
      ((machineOf enabled [(4, 0x3FFFFFFFFFFFFFFF), (5, 1)] []).x 4).extractLsb' 62 2 := by decide

theorem test_witness_ConditionalBranches :
    (machineOf (atLevel .I) [] []).delay = .none ∧ (machineOf (atLevel .I) [] []).settled [4, 5] = true ∧
    (machineOf (atLevel .I) [] []).supports .II = false ∧ (machine [(4, 0x8000000000000000)] []).delay = .none ∧ (machine [(4, 0x8000000000000000)] []).settled [4, 5] = true ∧
    (0xFFFFFFFFFFFE1004#64) = (machine [] []).pc + 4#64 + BitVec.ofInt 64 (4 * (0x8000#16).toInt) ∧
    (machine [] []).supports .II = true := by decide

theorem test_witness_LinkBranches :
    (machine [] []).delay = .none ∧ (machine [] []).settled [4] = true ∧ (machine [] []).supports .II = true ∧
    (machineOf (atLevel .I) [] []).delay = .none ∧ (machineOf (atLevel .I) [] []).settled [31] = true ∧
    (0x21000#64) = (machine [] []).pc + 4#64 + BitVec.ofInt 64 (4 * (0x7FFF#16).toInt) ∧ (30 : Reg) ≠ 31#5 := by decide

/-- The jump's delay slot is the first word of the next region. -/
theorem test_witness_Jumps :
    ({ machine [] [] with pc := 0x0FFFFFFC } : State).delay = .none ∧
    ({ machine [] [] with pc := 0x0FFFFFFC } : State).settled [4] = true ∧
    (0x1FFFFFFC#64).toNat = ((0x0FFFFFFC#64) + 4#64).toNat / 2 ^ 28 * 2 ^ 28 + 4 * (0x3FFFFFF#26).toNat ∧
    (4 : Reg) ≠ 31 := by decide

theorem test_witness_ExceptionInstructions :
    (machineOf (atLevel .II) [] []).supports .II = true ∧ (machineOf (atLevel .I) [] []).supports .II = false := by decide

theorem test_witness_SyncAndPrefetch :
    (machineOf (atLevel .II) [] []).supports .II = true ∧ (machineOf enabled [] []).supports .IV = true ∧ (0 : BitVec 5) = 0#5 ∧ (1 : BitVec 5) ≠ 0#5 ∧
    unitUsable enabled 1 = true := by decide

theorem test_witness_ConditionalMoves :
    (machineOf enabled [] []).supports .IV = true ∧ unitUsable enabled 1 = true ∧ enabled.fpuMoves = false ∧
    unitUsable withMoves 1 = true ∧ withMoves.fpuMoves = true := by decide

end Sys2Proof.Tests
end

section
/-! SUPPORT. What the rule of an instruction can write, said once for all instructions: `Writes` lists the shapes of a
completed rule, and `exec_eq_issue` says that every instruction is issued with the traits that Safety.lean names for it
and completes in one of these shapes. -/

namespace Sys2Proof.Machine

/-! ## The cells of an access -/

/-- The cells are physical addresses, when a physical address has room for a doubleword. -/
def PhysicalCells (p : Params) (cells : List Nat) : Prop := 3 ≤ p.psize → ∀ a ∈ cells, a < 2 ^ p.psize

theorem physicalCells_of_aligned {p : Params} {kind : AccessKind} {v : Word} {pa n : Nat} {type : AccessType}
    (ht : translate p kind v = .ok (pa, type)) (hv : v.toNat % n = 0) (hn : n ∣ 8) :
    PhysicalCells p (dataCells p pa n) := by
  intro hp
  obtain ⟨hlt, hlow⟩ := translate_lt hp ht
  refine dataCells_lt hp hlt ?_
  obtain ⟨m, hm⟩ := hn
  have hdvd : n ∣ v.toNat % 8 := (Nat.dvd_mod_iff ⟨m, hm⟩).2 (Nat.dvd_of_mod_eq_zero hv)
  obtain ⟨k, hk⟩ := hdvd
  have hkm : k < m := Nat.lt_of_mul_lt_mul_left (a := n) (by omega)
  have hnk : n * (k + 1) ≤ n * m := Nat.mul_le_mul_left n hkm
  rw [Nat.mul_add, Nat.mul_one] at hnk
  omega

theorem physicalCells_of_side {p : Params} {kind : AccessKind} {v : Word} {pa n : Nat} {type : AccessType}
    (ht : translate p kind v = .ok (pa, type)) (hn : n = 4 ∨ n = 8) (side : Side) :
    PhysicalCells p (selectedCells p side v pa n) := by
  intro hp
  obtain ⟨hlt, hlow⟩ := translate_lt hp ht
  unfold selectedCells selectedCount offsetIn
  cases selectsUpward p side <;> rcases hn with rfl | rfl <;> exact dataCells_lt hp (by simp; omega) (by simp; omega)

/-! ## The shapes of a completed rule -/

/-- What the rule of an instruction may have written when it completes, and the delay value it leaves. -/
inductive Writes (s : State) (i : Instr) : State → Delay → Prop where
  | nothing (d : Delay) (hd : isBranch i = false → d = .none) : Writes s i s d
  | register (r : Reg) (v : Word) (d : Delay) (hd : isBranch i = false → d = .none) : Writes s i (s.setX r v) d
  | fromHiLo (r : Reg) (v : Word) : Writes s i (s.staleHiLo.setX r v) .none
  | hiLo (hw : writesHiLo i = true) (hi lo : Word) (fresh : Bool) :
      Writes s i { s with hi := hi, lo := lo, hiloFresh := fresh } .none
  | load (ha : (accessOf s i).isSome = true) {cells : List Nat} (hc : PhysicalCells s.params cells) (type : AccessType)
      (r : Reg) (v : Word) : Writes s i ((s.remember .load type cells).setX r v) .none
  | loadUnit (ha : (accessOf s i).isSome = true) {cells : List Nat} (hc : PhysicalCells s.params cells)
      (type : AccessType) (u₁ u₂ : CopUnit) :
      Writes s i { s.remember .load type cells with cop1 := u₁, cop2 := u₂ } .none
  | store (hs : isStore i = true) (ha : (accessOf s i).isSome = true) {cells : List Nat}
      (hc : PhysicalCells s.params cells) (type : AccessType) (v : Nat) (u₂ : CopUnit) :
      Writes s i (((s.remember .store type cells).writeCells cells v).setCop2 u₂) .none
  | linkedLoad (hl : isLinked i = true) (ha : (accessOf s i).isSome = true) {cells : List Nat}
      (hc : PhysicalCells s.params cells) (type : AccessType) (r : Reg) (v : Word) (l : Link) :
      Writes s i { (s.remember .load type cells).setX r v with llbit := true, link := some l } .none
  | conditionalStore (hl : isLinked i = true) (hs : isStore i = true) (ha : (accessOf s i).isSome = true)
      {cells : List Nat} (hc : PhysicalCells s.params cells) (type : AccessType) (w : Nat) (r : Reg) (v : Word) :
      Writes s i { ((s.remember .store type cells).writeCells cells w).setX r v with llbit := false, link := none } .none
  | conditionalFailure (hl : isLinked i = true) (r : Reg) (v : Word) :
      Writes s i { s.setX r v with llbit := false, link := none } .none

/-! ## The ways to deliver a result -/

section Deliver
variable {s s' : State} {i : Instr} {d : Delay}

theorem writes_complete (h : s.complete = .done s' d) : Writes s i s' d := by
  cases h; exact .nothing _ fun _ => rfl

theorem writes_deliver {r : Reg} {v : Word} (h : s.deliver r v = .done s' d) : Writes s i s' d := by
  cases h; exact .register r v _ fun _ => rfl

theorem writes_deliverTrapping {c : Bool} {r : Reg} {v : Word} (h : s.deliverTrapping c r v = .done s' d) :
    Writes s i s' d := by
  unfold State.deliverTrapping at h
  generalize (if c then wordOverflow v else s.freeBit 0) = overflows at h
  cases overflows with
  | true => cases h
  | false => exact writes_deliver h

theorem writes_deliverDouble {r : Reg} {n : Int} (h : s.deliverDouble r n = .done s' d) : Writes s i s' d := by
  unfold State.deliverDouble at h
  split at h
  · cases h
  · exact writes_deliver h

theorem writes_trapIf {c : Bool} (h : s.trapIf c = .done s' d) : Writes s i s' d := by
  unfold State.trapIf at h
  split at h
  · cases h
  · exact writes_complete h

/-- A conditional move delivers or does nothing. -/
theorem writes_move {c : Prop} [Decidable c] {r : Reg} {v : Word}
    (h : (if c then s.deliver r v else s.complete) = .done s' d) : Writes s i s' d := by
  split at h
  · exact writes_deliver h
  · exact writes_complete h

theorem writes_branch (hb : isBranch i = true) {d₀ : Delay} (h : Effect.done s d₀ = .done s' d) :
    Writes s i s' d := by
  cases h; exact .nothing _ fun hb' => by simp [hb] at hb'

theorem writes_jumpLink (hb : isBranch i = true) {r : Reg} {v : Word} {d₀ : Delay}
    (h : Effect.done (s.setX r v) d₀ = .done s' d) : Writes s i s' d := by
  cases h; exact .register r v _ fun hb' => by simp [hb] at hb'

theorem writes_linkBranch (hb : isBranch i = true) {rs : Reg} {d₀ : Delay} (h : s.linkBranch rs d₀ = .done s' d) :
    Writes s i s' d := by
  unfold State.linkBranch at h
  split at h
  · cases h
  · exact writes_jumpLink hb h

theorem writes_fromHiLo {r : Reg} {v : Word} (h : s.staleHiLo.deliver r v = .done s' d) : Writes s i s' d := by
  cases h; exact .fromHiLo r v

theorem writes_deliverHiLo (hw : writesHiLo i = true) {defined : Bool} {hi lo : Word}
    (h : s.deliverHiLo defined hi lo = .done s' d) : Writes s i s' d := by
  unfold State.deliverHiLo State.mayWriteHiLo at h
  split at h
  · cases h
  · cases h
    cases defined <;> exact .hiLo hw _ _ true

/-- MTHI and MTLO. -/
theorem writes_moveToHiLo (hw : writesHiLo i = true) {c : Prop} [Decidable c] {r : Refusal} {hi lo : Word}
    (h : (if c then Effect.refuse r else State.complete { s.staleHiLo with hi := hi, lo := lo }) = .done s' d) :
    Writes s i s' d := by
  split at h
  · cases h
  · cases h; exact .hiLo hw hi lo false

/-! ## Loads and stores -/

/-- An indexed access is made only in the region of its base. -/
theorem inRegion_done {base : Reg} {v : Word} {next : Effect} (h : s.inRegion base v next = .done s' d) :
    next = .done s' d := by
  unfold State.inRegion at h
  split at h
  · exact h
  · cases h

theorem bytes_dvd_eight (size : LinkSize) : size.bytes ∣ 8 := by cases size <;> decide

variable (ha : (accessOf s i).isSome = true)
include ha

/-- A load whose data goes to a general register. -/
theorem writes_load {v : Word} {n : Nat} (hn : n ∣ 8) {rt : Reg} {f : Nat → Word}
    (h : s.load v n (fun w s₁ => s₁.deliver rt (f w)) = .done s' d) : Writes s i s' d := by
  obtain ⟨pa, type, hv, ht, -, -, hdone⟩ := load_done h
  cases hdone
  exact .load ha (physicalCells_of_aligned ht hv hn) type rt _

/-- A load whose data goes to unit 1 or unit 2. -/
theorem writes_loadUnit {v : Word} {n : Nat} (hn : n ∣ 8) {f : Nat → State → State}
    (hf : ∀ w s₁, f w s₁ = { s₁ with cop1 := (f w s₁).cop1, cop2 := (f w s₁).cop2 })
    (h : s.load v n (fun w s₁ => (f w s₁).complete) = .done s' d) : Writes s i s' d := by
  obtain ⟨pa, type, hv, ht, -, -, hdone⟩ := load_done h
  cases hdone
  rw [hf]
  exact .loadUnit ha (physicalCells_of_aligned ht hv hn) type _ _

theorem writes_loadSide {side : Side} {v : Word} {n : Nat} (hn : n = 4 ∨ n = 8) {rt : Reg} {f : Nat → Word}
    (h : s.loadSide side v n (fun w s₁ => s₁.deliver rt (f w)) = .done s' d) : Writes s i s' d := by
  obtain ⟨pa, type, ht, hdone⟩ := loadSide_done h
  cases hdone
  exact .load ha (physicalCells_of_side ht hn side) type rt _

theorem writes_store (hs : isStore i = true) {v : Word} {n w : Nat} (hn : n ∣ 8)
    (h : s.store v n w State.complete = .done s' d) : Writes s i s' d := by
  obtain ⟨pa, type, hv, ht, -, hdone⟩ := store_done h
  cases hdone
  exact .store hs ha (physicalCells_of_aligned ht hv hn) type w s.cop2

/-- A store of data that unit 2 has supplied. -/
theorem writes_storeUnitTwo (hs : isStore i = true) {v : Word} {n w : Nat} (hn : n ∣ 8) {u : CopUnit}
    (h : s.store v n w (fun s₁ => (s₁.setCop2 u).complete) = .done s' d) : Writes s i s' d := by
  obtain ⟨pa, type, hv, ht, -, hdone⟩ := store_done h
  cases hdone
  exact .store hs ha (physicalCells_of_aligned ht hv hn) type w u

theorem writes_storeSide (hs : isStore i = true) {side : Side} {v : Word} {n w : Nat} (hn : n = 4 ∨ n = 8)
    (h : s.storeSide side v n w = .done s' d) : Writes s i s' d := by
  obtain ⟨pa, type, ht, rfl, rfl⟩ := storeSide_done h
  exact .store hs ha (physicalCells_of_side ht hn side) type _ s.cop2

theorem writes_linkedLoad (hl : isLinked i = true) {v : Word} {size : LinkSize} {rt : Reg} {f : Nat → Word}
    (h : s.linkedLoad v size rt f = .done s' d) : Writes s i s' d := by
  obtain ⟨pa, type, ht, hv, rfl, rfl⟩ := linkedLoad_done h
  exact .linkedLoad hl ha (physicalCells_of_aligned ht hv (bytes_dvd_eight size)) type rt _ _

theorem writes_conditionalStore (hl : isLinked i = true) (hs : isStore i = true) {v : Word} {size : LinkSize}
    {rt : Reg} (h : s.conditionalStore v size rt = .done s' d) : Writes s i s' d := by
  obtain ⟨pa, type, ht, hv, rfl, rfl | rfl⟩ := conditionalStore_done h
  · exact .conditionalStore hl hs ha (physicalCells_of_aligned ht hv (bytes_dvd_eight size)) type _ rt _
  · exact .conditionalFailure hl rt _

end Deliver

/-- What a doubleword load puts in unit 1 stays in unit 1. -/
theorem copLoadDouble1_rest (s : State) (ft : Reg) (v : Word) :
    s.copLoadDouble1 ft v =
      { s with cop1 := (s.copLoadDouble1 ft v).cop1, cop2 := (s.copLoadDouble1 ft v).cop2 } := by
  unfold State.copLoadDouble1
  split
  · rfl
  · split <;> rfl

/-! ## Every instruction -/

/-- The traits an instruction is issued with are those that Safety.lean names for it. -/
structure HasTraits (s : State) (i : Instr) (t : Traits) : Prop where
  level : t.level = i.level := by rfl
  branch : t.branch = isBranch i := by rfl
  unit : t.unit = unitOf i := by rfl
  memory : isLinked i = false → t.memory = isAccess s i := by intros; rfl
  reads : t.reads = sourcesOf i := by rfl
  merges : t.merges = mergedBy s i := by rfl
  loads : ∀ level, t.loadDelay level = if level = .I then loadedBy i else none := by intros; rfl

/-- The load delay of a load of `rt`. -/
theorem loadDelay_of_loads {t : Traits} {rt : Reg} (h : t.loads = some rt) (level : Level) :
    t.loadDelay level = if level = .I then (if rt = 0#5 then none else some ⟨rt, t.mergeLoad⟩) else none := by
  by_cases hr : rt = 0#5 <;> simp [Traits.loadDelay, h, hr, Option.filter]

/-- LWL merges unless it loads all four bytes. -/
theorem mergeSource_left (s : State) (v : Word) (rt : Reg) :
    s.mergeSource .left v 4 rt = if v.toNat % 4 = (if bigEndianCPU s.params then 0 else 3) then none else some rt := by
  unfold State.mergeSource skippedCount selectedCount offsetIn selectsUpward
  cases bigEndianCPU s.params <;> simp <;> congr 1 <;> simp <;> omega

/-- LWR merges unless it loads all four bytes. -/
theorem mergeSource_right (s : State) (v : Word) (rt : Reg) :
    s.mergeSource .right v 4 rt = if v.toNat % 4 = (if bigEndianCPU s.params then 3 else 0) then none else some rt := by
  unfold State.mergeSource skippedCount selectedCount offsetIn selectsUpward
  cases bigEndianCPU s.params <;> simp <;> congr 1 <;> simp <;> omega

/-- Every instruction is issued with its traits and a rule that completes in one of the shapes of `Writes`. -/
theorem exec_eq_issue (i : Instr) (s : State) :
    ∃ t rule, exec i s = s.issue t rule ∧ HasTraits s i t ∧ ∀ s' d, rule s = .done s' d → Writes s i s' d := by
  unfold exec
  cases i with
  | lb base rt offset | lbu base rt offset | lh base rt offset | lhu base rt offset | lw base rt offset =>
    exact ⟨_, _, rfl, { loads := loadDelay_of_loads rfl }, fun _ _ h => writes_load rfl (by decide) h⟩
  | lwu base rt offset | ld base rt offset =>
    exact ⟨_, _, rfl, {}, fun _ _ h => writes_load rfl (by decide) h⟩
  | sb base rt offset | sh base rt offset | sw base rt offset | sd base rt offset =>
    exact ⟨_, _, rfl, {}, fun _ _ h => writes_store rfl rfl (by decide) h⟩
  | lwl base rt offset =>
    exact ⟨_, _, rfl, { merges := mergeSource_left .., loads := loadDelay_of_loads rfl },
      fun _ _ h => writes_loadSide rfl (.inl rfl) h⟩
  | lwr base rt offset =>
    exact ⟨_, _, rfl, { merges := mergeSource_right .., loads := loadDelay_of_loads rfl },
      fun _ _ h => writes_loadSide rfl (.inl rfl) h⟩
  | ldl base rt offset | ldr base rt offset =>
    exact ⟨_, _, rfl, {}, fun _ _ h => writes_loadSide rfl (.inr rfl) h⟩
  | swl base rt offset | swr base rt offset =>
    exact ⟨_, _, rfl, {}, fun _ _ h => writes_storeSide rfl rfl (.inl rfl) h⟩
  | sdl base rt offset | sdr base rt offset =>
    exact ⟨_, _, rfl, {}, fun _ _ h => writes_storeSide rfl rfl (.inr rfl) h⟩
  | ll base rt offset | lld base rt offset =>
    exact ⟨_, _, rfl, { memory := fun h => by cases h }, fun _ _ h => writes_linkedLoad rfl rfl h⟩
  | sc base rt offset | scd base rt offset =>
    exact ⟨_, _, rfl, {}, fun _ _ h => writes_conditionalStore rfl rfl rfl h⟩
  | lwc1 base rt offset | lwc2 base rt offset | ldc2 base rt offset =>
    exact ⟨_, _, rfl, {}, fun _ _ h => writes_loadUnit rfl (by decide) (fun _ _ => rfl) h⟩
  | ldc1 base rt offset =>
    exact ⟨_, _, rfl, {}, fun _ _ h => writes_loadUnit rfl (by decide) (fun _ _ => copLoadDouble1_rest ..) h⟩
  | swc1 base rt offset | sdc1 base rt offset =>
    exact ⟨_, _, rfl, {}, fun _ _ h => writes_store rfl rfl (by decide) h⟩
  | swc2 base rt offset | sdc2 base rt offset =>
    exact ⟨_, _, rfl, {}, fun _ _ h => writes_storeUnitTwo rfl rfl (by decide) h⟩
  | lwxc1 base index fd =>
    exact ⟨_, _, rfl, {}, fun _ _ h => writes_loadUnit rfl (by decide) (fun _ _ => rfl) (inRegion_done h)⟩
  | ldxc1 base index fd =>
    exact ⟨_, _, rfl, {}, fun _ _ h =>
      writes_loadUnit rfl (by decide) (fun _ _ => copLoadDouble1_rest ..) (inRegion_done h)⟩
  | swxc1 base index fs | sdxc1 base index fs =>
    exact ⟨_, _, rfl, {}, fun _ _ h => writes_store rfl rfl (by decide) (inRegion_done h)⟩
  | addi rs rt imm | add rs rt rd | sub rs rt rd =>
    exact ⟨_, _, rfl, {}, fun _ _ h => writes_deliverTrapping h⟩
  | daddi rs rt imm | dadd rs rt rd | dsub rs rt rd =>
    exact ⟨_, _, rfl, {}, fun _ _ h => writes_deliverDouble h⟩
  | addiu rs rt imm | slti rs rt imm | sltiu rs rt imm | andi rs rt imm | ori rs rt imm | xori rs rt imm
  | daddiu rs rt imm | lui rt imm | addu rs rt rd | subu rs rt rd | daddu rs rt rd | dsubu rs rt rd | slt rs rt rd
  | sltu rs rt rd | and rs rt rd | or rs rt rd | xor rs rt rd | nor rs rt rd =>
    exact ⟨_, _, rfl, {}, fun _ _ h => writes_deliver h⟩
  | sll rt rd sa | srl rt rd sa | sra rt rd sa | dsll rt rd sa | dsrl rt rd sa | dsra rt rd sa | dsll32 rt rd sa
  | dsrl32 rt rd sa | dsra32 rt rd sa | sllv rs rt rd | srlv rs rt rd | srav rs rt rd | dsllv rs rt rd
  | dsrlv rs rt rd | dsrav rs rt rd =>
    exact ⟨_, _, rfl, {}, fun _ _ h => writes_deliver h⟩
  | mult rs rt | multu rs rt | div rs rt | divu rs rt | dmult rs rt | dmultu rs rt | ddiv rs rt | ddivu rs rt =>
    exact ⟨_, _, rfl, {}, fun _ _ h => writes_deliverHiLo rfl h⟩
  | mfhi rd | mflo rd =>
    exact ⟨_, _, rfl, {}, fun _ _ h => writes_fromHiLo h⟩
  | mthi rs | mtlo rs =>
    exact ⟨_, _, rfl, {}, fun _ _ h => writes_moveToHiLo rfl h⟩
  | j index | jr rs | beq rs rt offset | bne rs rt offset | blez rs offset | bgtz rs offset | beql rs rt offset
  | bnel rs rt offset | blezl rs offset | bgtzl rs offset | bltz rs offset | bgez rs offset | bltzl rs offset
  | bgezl rs offset =>
    exact ⟨_, _, rfl, {}, fun _ _ h => writes_branch rfl h⟩
  | jal index =>
    exact ⟨_, _, rfl, {}, fun _ _ h => writes_jumpLink rfl h⟩
  | jalr rs rd =>
    refine ⟨_, _, rfl, {}, fun s' d h => ?_⟩
    split at h
    · cases h
    · exact writes_jumpLink rfl h
  | bltzal rs offset | bgezal rs offset | bltzall rs offset | bgezall rs offset =>
    exact ⟨_, _, rfl, {}, fun _ _ h => writes_linkBranch rfl h⟩
  | syscall code | brk code | cop0 co f | cop1 co f | cop2 co f =>
    exact ⟨_, _, rfl, {}, fun _ _ h => by cases h⟩
  | tge rs rt code | tgeu rs rt code | tlt rs rt code | tltu rs rt code | teq rs rt code | tne rs rt code
  | tgei rs imm | tgeiu rs imm | tlti rs imm | tltiu rs imm | teqi rs imm | tnei rs imm =>
    exact ⟨_, _, rfl, {}, fun _ _ h => writes_trapIf h⟩
  | sync stype =>
    refine ⟨_, _, rfl, {}, fun s' d h => ?_⟩
    split at h
    · exact writes_complete h
    · cases h
  | movn rs rt rd | movz rs rt rd =>
    exact ⟨_, _, rfl, {}, fun _ _ h => writes_move h⟩
  | pref base hint offset | prefx base index hint =>
    exact ⟨_, _, rfl, {}, fun _ _ h => writes_complete h⟩
  | movci rs cc tf rd =>
    refine ⟨_, _, rfl, {}, fun s' d h => ?_⟩
    split at h
    · cases h
    · exact writes_move h

/-- What an instruction leaves: an exception taken, or its writes retired. -/
theorem exec_next {i : Instr} {s t : State} (h : exec i s = .next t) :
    (∃ e, t = s.takeException e) ∨
      ∃ traits s' d, HasTraits s i traits ∧ Writes s i s' d ∧ t = s.retire traits s' d := by
  obtain ⟨traits, rule, hexec, htraits, hwrites⟩ := exec_eq_issue i s
  rw [hexec] at h
  rcases issue_next h with hexc | ⟨s', d, hdone, hret⟩
  · exact .inl hexc
  · exact .inr ⟨traits, s', d, htraits, hwrites s' d hdone, hret⟩

end Sys2Proof.Machine
end

section
/-! SUPPORT. Frames and the invariant: what the writes of a rule leave unchanged, what its completion does around them,
and from the two what every instruction and every step keeps. -/

namespace Sys2Proof.Machine

/-! ## What the writes of a rule leave unchanged -/

section Writes
variable {s s' : State} {i : Instr} {d : Delay}

theorem Writes.params (h : Writes s i s' d) : s'.params = s.params := by cases h <;> rfl
theorem Writes.trap (h : Writes s i s' d) : s'.trap = s.trap := by cases h <;> rfl
theorem Writes.env (h : Writes s i s' d) : s'.env = s.env := by cases h <;> rfl

/-- Only a jump or branch leaves a pending branch (10_state.md R40). -/
theorem Writes.delay (h : Writes s i s' d) (hb : isBranch i = false) : d = .none := by
  cases h with
  | nothing _ hd | register _ _ _ hd => exact hd hb
  | _ => rfl

theorem Writes.hi_lo (h : Writes s i s' d) (hw : writesHiLo i = false) : s'.hi = s.hi ∧ s'.lo = s.lo := by
  cases h with
  | hiLo hw' => simp [hw] at hw'
  | _ => exact ⟨rfl, rfl⟩

theorem Writes.llbit_link (h : Writes s i s' d) (hl : isLinked i = false) :
    s'.llbit = s.llbit ∧ s'.link = s.link := by
  cases h with
  | linkedLoad hl' | conditionalStore hl' | conditionalFailure hl' => simp [hl] at hl'
  | _ => exact ⟨rfl, rfl⟩

end Writes

/-! ## Parts of the invariant that several writes keep -/

/-- An access of physical cells leaves the record of accesses canonical. -/
theorem inv_remember {s : State} (h : s.Inv) (kind : AccessKind) (type : AccessType) {cells : List Nat}
    (hc : PhysicalCells s.params cells) : (s.remember kind type cells).Inv :=
  { h with history := rising_record h.history, historyKeys := keysBelow_record h.historyKeys (hc h.launch) }

/-- A store to physical cells leaves memory canonical. -/
theorem inv_writeCells {s : State} (h : s.Inv) {cells : List Nat} (hc : PhysicalCells s.params cells) (v : Nat) :
    (s.writeCells cells v).Inv :=
  { h with
    memory := wf_writeCells h.memory cells v
    memoryKeys := keysBelow_writeAll h.memoryKeys fun _ hm => hc h.launch _ (List.of_mem_zip hm).1 }

theorem inv_setX {s : State} (h : s.Inv) (r : Reg) (v : Word) : (s.setX r v).Inv :=
  { h with zero := (setX_gpr_zero s r v).trans h.zero }

/-- The writes of a rule keep the invariant. -/
theorem Writes.inv {s s' : State} {i : Instr} {d : Delay} (h : Writes s i s' d) (hs : s.Inv) : s'.Inv := by
  cases h with
  | nothing => exact hs
  | register r v => exact inv_setX hs r v
  | fromHiLo r v => exact { inv_setX hs r v with }
  | hiLo => exact { hs with }
  | load _ hc type r v => exact inv_setX (inv_remember hs _ _ hc) r v
  | loadUnit _ hc type => exact { inv_remember hs .load type hc with }
  | store _ _ hc type v => exact { inv_writeCells (inv_remember hs .store type hc) hc v with }
  | linkedLoad _ _ hc type r v => exact { inv_setX (inv_remember hs .load type hc) r v with linked := fun _ => rfl }
  | conditionalStore _ _ _ hc type w r v =>
    exact { inv_setX (inv_writeCells (inv_remember hs .store type hc) hc w) r v with linked := fun h => by cases h }
  | conditionalFailure _ r v => exact { inv_setX hs r v with linked := fun h => by cases h }

/-! ## The completion of an instruction -/

section Retire
variable {s s' : State} {t : Traits} {d : Delay}

/-- The machine goes on as `Advances` says, when the rule leaves what the cycle owns. -/
theorem advances_retire (htrap : s'.trap = s.trap) (hparams : s'.params = s.params) (henv : s'.env = s.env) :
    Advances s (s.retire t s' d) d where
  taken target h := by simp [State.nextPc, h]
  next h := by
    rw [retire_pc, State.nextPc]
    split
    · exact absurd ‹_› (h _)
    · rfl
  delay := rfl
  trap := htrap
  params := hparams
  env := henv

theorem keepsLink_retire (h : s'.llbit = s.llbit ∧ s'.link = s.link) : KeepsLink s (s.retire t s' d) := by
  obtain ⟨hbit, hlink⟩ := h
  refine ⟨hbit, ?_⟩
  rw [retire_link, Option.map_map, hlink]
  rfl

theorem extend_low (l : Link) (pc : Word) (memory : Bool) : (l.extend pc memory).low.toNat = min l.low.toNat pc.toNat := by
  simp only [Link.extend, BitVec.lt_def]
  split <;> omega

theorem extend_high (l : Link) (pc : Word) (memory : Bool) :
    (l.extend pc memory).high.toNat = max l.high.toNat pc.toNat := by
  simp only [Link.extend, BitVec.lt_def]
  split <;> omega

/-- The sequence of a linked load is followed by every completion that leaves `LLaddr`. -/
theorem tracks_retire (hlink : s'.link = s.link) : Tracks s (s.retire t s' d) t.memory := by
  intro l hl
  exact ⟨l.extend s.pc t.memory, by simp [hlink, hl], rfl, rfl, rfl, rfl, extend_low .., extend_high ..⟩

theorem loadDelay_isSome {level : Level} (h : (t.loadDelay level).isSome = true) : level = .I := by
  unfold Traits.loadDelay at h
  split at h
  · assumption
  · cases h

theorem inv_retire (h : s'.Inv) (hparams : s'.params = s.params) : (s.retire t s' d).Inv :=
  { h with
    hiGuard := by
      have := h.hiGuard
      rw [retire_hiGuard]; split <;> omega
    loGuard := by
      have := h.loGuard
      rw [retire_loGuard]; split <;> omega
    linked := fun hbit => by rw [retire_link, Option.isSome_map]; exact h.linked hbit
    loadDelay := fun hd => by rw [retire_params, hparams]; exact loadDelay_isSome hd }

end Retire

theorem inv_takeException {s : State} (h : s.Inv) (e : Exception) : (s.takeException e).Inv := { h with }

theorem inv_skipSlot {s : State} (h : s.Inv) : s.skipSlot.Inv := { h with }

/-! ## Every instruction -/

theorem exec_params {i : Instr} {s t : State} (h : exec i s = .next t) : t.params = s.params := by
  rcases exec_next h with ⟨e, rfl⟩ | ⟨traits, s', d, -, hw, rfl⟩
  · rfl
  · exact hw.params

theorem exec_inv {i : Instr} {s t : State} (hs : s.Inv) (h : exec i s = .next t) : t.Inv := by
  rcases exec_next h with ⟨e, rfl⟩ | ⟨traits, s', d, -, hw, rfl⟩
  · exact inv_takeException hs e
  · exact inv_retire (hw.inv hs) hw.params

/-- An instruction that ends no run completes: its writes are retired. -/
theorem exec_completes {i : Instr} {s t : State} (h : exec i s = .next t) (ht : t.trap = none) :
    ∃ traits s' d, HasTraits s i traits ∧ Writes s i s' d ∧ t = s.retire traits s' d := by
  rcases exec_next h with ⟨e, rfl⟩ | hdone
  · cases ht
  · exact hdone

/-! ## The environment -/

@[simp] theorem environment_of_nil {s : State} (h : s.env = []) : s.environment = s := by
  unfold State.environment; rw [h]

theorem environment_of_cons {s : State} {e : EnvEvent} {rest : List EnvEvent} (h : s.env = e :: rest) :
    s.environment = State.applyEvent { s with env := rest } e := by
  unfold State.environment; rw [h]

@[simp] theorem resume_params (s : State) (pc : Word) (changes : List Alteration) :
    (s.resume pc changes).params = s.params := alterAll_params ..

theorem applyEvent_resume (s : State) (pc : Word) (changes : List Alteration) :
    s.applyEvent (.resume pc changes) = if s.trap.isSome then s.resume pc changes else s := rfl

theorem applyEvent_params (s : State) (e : EnvEvent) : (s.applyEvent e).params = s.params := by
  cases e with
  | resume pc changes =>
    rw [applyEvent_resume]
    split
    · exact resume_params ..
    · rfl
  | _ => rfl

theorem environment_params (s : State) : s.environment.params = s.params := by
  cases henv : s.env with
  | nil => rw [environment_of_nil henv]
  | cons e rest => rw [environment_of_cons henv, applyEvent_params]

/-- The bytes another agent can store are at physical addresses. -/
theorem agentCells_lt {s : State} {bytes : List Host.Cell} {c : Host.Cell} (h : c ∈ s.agentCells bytes) :
    c.1 < 2 ^ s.params.psize := by
  obtain ⟨b, -, rfl⟩ := List.mem_map.1 (List.mem_of_mem_filter h)
  exact Nat.mod_lt _ (Nat.two_pow_pos _)

theorem inv_clearLink {s : State} (h : s.Inv) : State.Inv { s with llbit := false } :=
  { h with linked := fun hbit => by cases hbit }

theorem inv_agentStore {s : State} (h : s.Inv) (bytes : List Host.Cell) : (s.agentStore bytes).Inv :=
  { h with
    linked := fun hbit => h.linked (Bool.and_eq_true_iff.1 hbit).1
    memory := wf_agentStore h.memory bytes
    memoryKeys := keysBelow_writeAll h.memoryKeys fun _ hc => agentCells_lt hc }

theorem inv_applyEvent {s : State} (h : s.Inv) (e : EnvEvent) : (s.applyEvent e).Inv := by
  cases e with
  | quiet => exact h
  | clearLink => exact inv_clearLink h
  | agentStore bytes => exact inv_agentStore h bytes
  | clearAndStore bytes => exact inv_agentStore (inv_clearLink h) bytes
  | resume pc changes =>
    rw [applyEvent_resume]
    split
    · exact inv_resume h pc changes
    · exact h

theorem inv_environment {s : State} (h : s.Inv) : s.environment.Inv := by
  cases henv : s.env with
  | nil => rwa [environment_of_nil henv]
  | cons e rest =>
    have hrest : State.Inv { s with env := rest } := { h with }
    rw [environment_of_cons henv]
    exact inv_applyEvent hrest e

/-! ## The step -/

theorem step_running {s : State} (h : s.trap = none) : step s = s.environment.cycle := by
  unfold step State.oneStep; rw [h]

theorem step_ended {s : State} {r : TrapRecord} (h : s.trap = some r) : step s = s.ended r := by
  unfold step State.oneStep; rw [h]

/-- What an instruction time leaves: the slot skipped, an exception taken, or what an instruction leaves. -/
inductive CycleResult (s : State) : State → Prop where
  | skipped : CycleResult s s.skipSlot
  | raised (e : Exception) : CycleResult s (s.takeException e)
  | executed {t : State} (i : Instr) (h : exec i s = .next t) : CycleResult s t

/-- A fetch that goes on with a state has taken an exception, or has read the word it goes on with. -/
theorem fetch_next {s t : State} {next : Word32 → Host.Outcome State Fault Refusal} (h : s.fetch next = .next t) :
    (∃ e, t = s.takeException e) ∨ ∃ w, next w = .next t := by
  unfold State.fetch at h
  split at h
  · exact .inl ⟨_, (Host.Outcome.next.inj h).symm⟩
  · split at h
    · exact .inl ⟨_, (Host.Outcome.next.inj h).symm⟩
    · split at h
      · exact .inl ⟨_, (Host.Outcome.next.inj h).symm⟩
      · split at h
        · cases h
        · exact .inr ⟨_, h⟩

theorem runDecoded_next {s t : State} {w : Decoded} (h : s.runDecoded w = .next t) : CycleResult s t := by
  cases w with
  | instr i => exact .executed i h
  | requiredZero level =>
    simp only [State.runDecoded] at h
    split at h
    · cases h; exact .raised _
    · cases h
  | cop1xArithmetic | cop1xReserved =>
    simp only [State.runDecoded] at h
    rcases issue_next h with ⟨e, rfl⟩ | ⟨s', d, hdone, -⟩
    · exact .raised e
    · cases hdone
  | reserved => cases h; exact .raised _

theorem cycle_next {s t : State} (h : s.cycle = .next t) : CycleResult s t := by
  unfold State.cycle at h
  split at h
  · cases h; exact .skipped
  · rcases fetch_next h with ⟨e, rfl⟩ | ⟨w, hw⟩
    · exact .raised e
    · exact runDecoded_next hw

/-- A step is the environment's, of an ended run, or the environment's followed by an instruction time. -/
theorem step_next {s t : State} (h : step s = .next t) :
    t = s.environment ∨ CycleResult s.environment t := by
  cases htrap : s.trap with
  | none =>
    rw [step_running htrap] at h
    exact .inr (cycle_next h)
  | some r =>
    rw [step_ended htrap] at h
    unfold State.ended at h
    split at h
    · cases h
    · exact .inl (Host.Outcome.next.inj h).symm

theorem CycleResult.params {s t : State} (h : CycleResult s t) : t.params = s.params := by
  cases h with
  | skipped | raised e => rfl
  | executed i h => exact exec_params h

theorem CycleResult.inv {s t : State} (h : CycleResult s t) (hs : s.Inv) : t.Inv := by
  cases h with
  | skipped => exact inv_skipSlot hs
  | raised e => exact inv_takeException hs e
  | executed i h => exact exec_inv hs h

/-! ## The statements -/

/-- Settles O24: the invariant is kept by the environment and by every result of an instruction time. -/
theorem stepKeepsInvariant : Obligations.StepKeepsInvariant := by
  intro s t hs h
  rcases step_next h with rfl | hc
  · exact inv_environment hs
  · exact hc.inv (inv_environment hs)

/-- Settles O25, by the same cases as O24. -/
theorem stepKeepsLaunchParameters : Obligations.StepKeepsLaunchParameters := by
  intro s t h
  rcases step_next h with rfl | hc
  · exact environment_params s
  · exact hc.params.trans (environment_params s)

/-- Settles O18: a completed instruction is retired, and only a branch leaves a delay value other than None. -/
theorem pcFollowsDelay : Obligations.PcFollowsDelay := by
  intro i s t _ h ht
  obtain ⟨traits, s', d, -, hw, rfl⟩ := exec_completes h ht
  have hadv : Advances s (s.retire traits s' d) d := advances_retire hw.trap hw.params hw.env
  exact ⟨hadv.taken, hadv.next, hw.delay⟩

/-- Settles O19: an exception and the retirement leave `HI` and `LO`, and of the writes only those of the ten do not. -/
theorem onlyMulDivWriteHiLo : Obligations.OnlyMulDivWriteHiLo := by
  intro i s t h hi
  rcases exec_next h with ⟨e, rfl⟩ | ⟨traits, s', d, -, hw, rfl⟩
  · exact ⟨rfl, rfl⟩
  · exact hw.hi_lo hi

/-- Settles O21: the retirement keeps the linked location and follows the sequence, and the traits of the instruction
say whether it is an access. -/
theorem onlyLinkedInstructionsChangeLink : Obligations.OnlyLinkedInstructionsChangeLink := by
  intro i s t h hl
  rcases exec_next h with ⟨e, rfl⟩ | ⟨traits, s', d, htraits, hw, rfl⟩
  · exact ⟨⟨rfl, rfl⟩, fun _ ht => by cases ht⟩
  · have hkeeps := hw.llbit_link hl
    refine ⟨keepsLink_retire hkeeps, fun _ _ => ?_⟩
    rw [← htraits.memory hl]
    exact tracks_retire hkeeps.2

end Sys2Proof.Machine
end

section
/-! SUPPORT. One step from a running state, and the state after reset. -/

namespace Sys2Proof.Machine

/-! ## Bytes as a word -/

/-- A byte above which the rest of a value is put. -/
theorem ofNat_append_byte (w v : Nat) : BitVec.ofNat (w + 8) v = BitVec.ofNat w (v / 256) ++ BitVec.ofNat 8 v := by
  refine BitVec.eq_of_getLsbD_eq fun k hk => ?_
  simp only [BitVec.getLsbD_append, BitVec.getLsbD_ofNat, show v / 256 = v / 2 ^ 8 from rfl, Nat.testBit_div_two_pow]
  split
  · simp [*]
  · rw [show k - 8 + 8 = k by omega, decide_eq_true hk, decide_eq_true (show k - 8 < w by omega)]

/-- The bytes of a sequence, least significant first, are put one above the other. -/
theorem ofNat_bytesValue_cons (w : Nat) (b : Byte) (bs : List Byte) :
    BitVec.ofNat (w + 8) (bytesValue (b :: bs)) = BitVec.ofNat w (bytesValue bs) ++ b := by
  rw [ofNat_append_byte, bytesValue]
  congr 1
  · congr 1; omega
  · refine BitVec.eq_of_toNat_eq ?_
    simp; omega

theorem ofNat_bytesValue_four (b₀ b₁ b₂ b₃ : Byte) :
    BitVec.ofNat 32 (bytesValue [b₀, b₁, b₂, b₃]) = b₃ ++ b₂ ++ b₁ ++ b₀ := by
  rw [ofNat_bytesValue_cons 24, ofNat_bytesValue_cons 16, ofNat_bytesValue_cons 8]
  simp [bytesValue]

/-- The word a fetch reads is the instruction word of 20_memory.md R78. -/
theorem fetchedWord_eq (s : State) (pa : Nat) : s.fetchedWord pa = s.instructionAt pa := by
  unfold State.fetchedWord State.instructionAt assemble fetchCells
  split <;> exact ofNat_bytesValue_four ..

/-! ## The step of a running machine -/

theorem cycle_of_executed {s : State} (h : s.delay ≠ .nullify) :
    s.cycle = s.fetch fun w => s.runDecoded (decode w) := if_neg h

theorem cycle_of_nullified {s : State} (h : s.delay = .nullify) : s.cycle = .next s.skipSlot := if_pos h

/-- A fetch that nothing stops goes on with the instruction word. -/
theorem fetch_eq {s : State} {pa : Nat} (h : Fetchable s pa) (next : Word32 → Host.Outcome State Fault Refusal) :
    s.fetch next = next (s.instructionAt pa) := by
  obtain ⟨type, ht⟩ := h.translated
  rw [← fetchedWord_eq]
  unfold State.fetch
  simp [h.aligned, ht, h.quiet, h.unstored]

/-- The step of a running machine at a word that can be fetched does what the word decodes to. -/
theorem step_of_fetchable {s : State} {pa : Nat} (hr : Running s) (hf : Fetchable s pa) :
    step s = s.runDecoded (decode (s.instructionAt pa)) := by
  rw [step_running hr.trap, environment_of_nil hr.env, cycle_of_executed hr.delay, fetch_eq hf]

/-- Settles O4: a running machine runs what it fetches. -/
theorem stepRunsDecoded : Obligations.StepRunsDecoded := by
  intro s pa i hr hf hdec
  rw [step_of_fetchable hr hf, hdec, State.runDecoded]

/-- Settles O7: the cycle skips the slot before any fetch. -/
theorem nullifiedSlotSkipped : Obligations.NullifiedSlotSkipped := by
  intro s htrap henv hdelay
  rw [step_running htrap, environment_of_nil henv, cycle_of_nullified hdelay, State.skipSlot]

/-! ## The environment before the instruction -/

/-- Two running states from which the environment makes the same state step alike. -/
theorem step_congr {s t : State} (hs : s.trap = none) (ht : t.trap = none) (h : s.environment = t.environment) :
    step s = step t := by
  rw [step_running hs, step_running ht, h]

/-- After the last event of the queue, the machine steps as from the state that the event leaves. -/
theorem step_of_lastEvent {s : State} {e : EnvEvent} (hs : s.trap = none) (henv : s.env = [e]) {t : State}
    (ht : State.applyEvent { s with env := [] } e = t) (htrap : t.trap = none) (hquiet : t.env = []) :
    step s = step t :=
  step_congr hs htrap ((environment_of_cons henv).trans (ht.trans (environment_of_nil hquiet).symm))

/-- A byte of coherent type at a physical address is stored by another agent. -/
theorem agentCells_coherent {s : State} {a : Nat} {b : Byte} (ha : a < 2 ^ s.params.psize)
    (hc : coherentCell s.params a = true) : s.agentCells [(a, b)] = [(a, b)] := by
  simp [State.agentCells, Nat.mod_eq_of_lt ha, hc]

/-- A byte of another type is not. -/
theorem agentCells_not_coherent {s : State} {a : Nat} {b : Byte} (ha : a < 2 ^ s.params.psize)
    (hc : coherentCell s.params a = false) : s.agentCells [(a, b)] = [] := by
  simp [State.agentCells, Nat.mod_eq_of_lt ha, hc]

/-- A byte is outside the block of a linked location when it is in the block of none of its cells. -/
theorem not_covers_eq (l : Link) (p : Params) (a : Nat) :
    (!l.covers p a) = decide (∀ c ∈ dataCells p l.paddr l.size.bytes, c / p.llBlock ≠ a / p.llBlock) := by
  simp [Link.covers, Link.cells, List.not_any_eq_all_not, List.all_eq]

/-- Settles O5: each event is the last of its queue, but for the two events at once, which leave a queue of one. -/
theorem environmentActsFirst : Obligations.EnvironmentActsFirst := by
  intro s hs
  refine ⟨fun henv => ?quiet, fun henv => ?clearLink, fun bytes henv => ?both, fun a b l henv hlink ha hc => ?stored,
    fun a b henv ha hc => ?ignored⟩
  case quiet => exact step_of_lastEvent hs henv rfl hs rfl
  case clearLink => exact step_of_lastEvent hs henv rfl hs rfl
  case both => exact step_congr hs hs (by rw [environment_of_cons henv]; rfl)
  case stored =>
    refine step_of_lastEvent hs henv ?_ hs rfl
    simp only [State.applyEvent, State.agentStore]
    rw [agentCells_coherent (s := { s with env := [] }) ha hc, hlink, ← not_covers_eq]
    simp [Memory.writeAll]
  case ignored =>
    refine step_of_lastEvent hs henv ?_ hs rfl
    simp only [State.applyEvent, State.agentStore]
    rw [agentCells_not_coherent (s := { s with env := [] }) ha hc]
    simp [Memory.writeAll]

/-! ## Reset -/

/-- Settles O22: every value is a field of the state after reset. -/
theorem resetValues : Obligations.ResetValues :=
  ⟨x_zero _, rfl, rfl, rfl, rfl, rfl, by decide⟩

/-- Settles O23: memory and the record of accesses are empty, and no guard, link or load delay is set. -/
theorem resetInvariant : Obligations.ResetInvariant where
  launch := by decide
  zero := by simp [State.reset]
  hiGuard := Nat.zero_le _
  loGuard := Nat.zero_le _
  linked h := by cases h
  memory := wf_reset
  memoryKeys := rfl
  history := rfl
  historyKeys := rfl
  loadDelay h := by cases h

end Sys2Proof.Machine
end

section
/-! SUPPORT. Loads and stores as functions: what cells hold after a store, what an access leaves unchanged, and the
transfers of unit 2. -/

namespace Sys2Proof.Machine

/-! ## The value of cells -/

theorem length_valueBytes (n v : Nat) : (valueBytes n v).length = n := by
  induction n generalizing v with
  | zero => rfl
  | succ n ih => rw [valueBytes, List.length_cons, ih]

theorem bytesValue_valueBytes (n v : Nat) : bytesValue (valueBytes n v) = v % 256 ^ n := by
  induction n generalizing v with
  | zero => simp [valueBytes, bytesValue, Nat.mod_one]
  | succ n ih =>
    rw [valueBytes, bytesValue, ih, Nat.pow_succ', BitVec.toNat_ofNat]
    exact Nat.mod_mul.symm

theorem length_disassemble (bigEndian : Bool) (n v : Nat) : (disassemble bigEndian n v).length = n := by
  unfold disassemble
  split <;> simp [length_valueBytes]

/-- The bytes of a value, put together in the same order, are its low bytes. -/
theorem assemble_disassemble (bigEndian : Bool) (n v : Nat) :
    assemble bigEndian (disassemble bigEndian n v) = v % 256 ^ n := by
  rw [← bytesValue_valueBytes]
  unfold assemble disassemble
  cases bigEndian <;> simp

theorem ofNat_bytesValue_eight (b₀ b₁ b₂ b₃ b₄ b₅ b₆ b₇ : Byte) :
    BitVec.ofNat 64 (bytesValue [b₀, b₁, b₂, b₃, b₄, b₅, b₆, b₇]) =
      b₇ ++ b₆ ++ b₅ ++ b₄ ++ b₃ ++ b₂ ++ b₁ ++ b₀ := by
  rw [ofNat_bytesValue_cons 56, ofNat_bytesValue_cons 48, ofNat_bytesValue_cons 40, ofNat_bytesValue_cons 32,
    ofNat_bytesValue_four]

/-- The value of four cells is the word of 20_memory.md R80. -/
theorem ofNat_readCells_four (s : State) (pa : Nat) :
    BitVec.ofNat 32 (s.readCells (dataCells s.params pa 4)) = s.wordAt pa := by
  unfold State.readCells State.wordAt assemble
  split <;> exact ofNat_bytesValue_four ..

/-- The value of eight cells is the doubleword of 20_memory.md R80. -/
theorem ofNat_readCells_eight (s : State) (pa : Nat) :
    BitVec.ofNat 64 (s.readCells (dataCells s.params pa 8)) = s.doubleAt pa := by
  unfold State.readCells State.doubleAt assemble
  split <;> exact ofNat_bytesValue_eight ..

/-! ## Cells after a store -/

theorem dataCell_injective (p : Params) : Function.Injective (dataCell p) := by
  intro a b h
  unfold dataCell at h
  split at h <;> omega

theorem nodup_dataCells (p : Params) (pa n : Nat) : (dataCells p pa n).Nodup :=
  List.nodup_range.map fun _ _ h => Nat.add_left_cancel (dataCell_injective p h)

@[simp] theorem length_dataCells (p : Params) (pa n : Nat) : (dataCells p pa n).length = n := by
  simp [dataCells]

/-- Bytes written to distinct cells are read back. -/
theorem map_read_writeAll_zip {m : List Host.Cell} (h : Memory.wf m = true) {cells : List Nat} {bs : List Byte}
    (hd : cells.Nodup) (hl : bs.length = cells.length) :
    cells.map (Memory.read (Memory.writeAll m (cells.zip bs))) = bs := by
  have hkeys : ((cells.zip bs).map Prod.fst).Nodup := by rwa [List.map_fst_zip (Nat.le_of_eq hl.symm)]
  refine List.ext_getElem (by simp [hl]) fun k hk hk' => ?_
  have hmem : (cells[k]'(by simpa using hk), bs[k]) ∈ cells.zip bs := by
    rw [← List.getElem_zip (h := by simp; omega)]
    exact List.getElem_mem _
  simpa using read_writeAll_of_mem h hmem hkeys

/-- Distinct cells hold the low bytes of the value stored in them. -/
theorem readCells_writeCells {s : State} (h : Memory.wf s.mem = true) {cells : List Nat} (hd : cells.Nodup) (v : Nat) :
    (s.writeCells cells v).readCells cells = v % 256 ^ cells.length := by
  rw [State.readCells, writeCells_mem, writeCells_params,
    map_read_writeAll_zip h hd (length_disassemble ..), assemble_disassemble]

theorem wordAt_writeCells {s : State} (h : Memory.wf s.mem = true) (pa : Nat) (w : Word32) :
    (s.writeCells (dataCells s.params pa 4) w.toNat).wordAt pa = w := by
  rw [← ofNat_readCells_four, writeCells_params, readCells_writeCells h (nodup_dataCells ..), length_dataCells,
    Nat.mod_eq_of_lt (b := 256 ^ 4) w.isLt, BitVec.ofNat_toNat, BitVec.setWidth_eq]

theorem doubleAt_writeCells {s : State} (h : Memory.wf s.mem = true) (pa : Nat) (w : Word) :
    (s.writeCells (dataCells s.params pa 8) w.toNat).doubleAt pa = w := by
  rw [← ofNat_readCells_eight, writeCells_params, readCells_writeCells h (nodup_dataCells ..), length_dataCells,
    Nat.mod_eq_of_lt (b := 256 ^ 8) w.isLt, BitVec.ofNat_toNat, BitVec.setWidth_eq]

/-- A word in memory is a matter of memory and the byte order. -/
theorem wordAt_congr {s t : State} (hm : t.mem = s.mem) (hp : t.params = s.params) (pa : Nat) :
    t.wordAt pa = s.wordAt pa := by
  simp only [State.wordAt, State.byteAt, hm, hp]

theorem doubleAt_congr {s t : State} (hm : t.mem = s.mem) (hp : t.params = s.params) (pa : Nat) :
    t.doubleAt pa = s.doubleAt pa := by
  simp only [State.doubleAt, State.byteAt, hm, hp]

theorem keepsMemory_writeCells {s : State} (h : Memory.wf s.mem = true) (cells : List Nat) (v : Nat) :
    KeepsMemory s (s.writeCells cells v) cells := fun _ ha =>
  read_writeAll_of_not_mem h fun _ hc hca => ha (hca ▸ (List.of_mem_zip hc).1)

theorem records_remember (s : State) (kind : AccessKind) (type : AccessType) (cells : List Nat) :
    Records s (s.remember kind type cells) type (kind = .store) cells :=
  ⟨fun _ ha => (find_record ..).trans (if_pos ha), fun _ ha => (find_record ..).trans (if_neg ha)⟩

/-! ## An instruction that is admitted -/

theorem supports_I (s : State) : s.supports .I = true := by
  unfold State.supports
  cases s.params.archLevel <;> rfl

/-- A register that is not in the load delay slot may be read. -/
theorem loadHazard_of_settled {s : State} {t : Traits} {rs : List Reg} (h : s.settled rs = true) (hr : t.reads ⊆ rs)
    (hm : t.merges = none) : s.loadHazard t = false := by
  unfold State.loadHazard
  unfold State.settled at h
  cases hd : s.loadDelay with
  | none => rfl
  | some d =>
    have hnot : d.reg ∉ rs := by simpa [hd] using h
    simpa [hm] using fun hmem => hnot (hr hmem)

/-- An admitted instruction whose rule completes is retired. -/
theorem issue_of_done {s s' : State} {t : Traits} {d : Delay} {rule : State → Effect} (h : Admits s t)
    (hdone : rule s = .done s' d) : s.issue t rule = .next (s.retire t s' d) := by
  rw [issue_of_admits h, hdone]

/-! ## Unit 2 (41_atomic_coproc_load_store.md R212 to R216) -/

/-- The traits of the transfers of unit 2. -/
def unitTwoTraits (level : Level) (reads : List Reg) : Traits where
  level := level
  unit := some 2
  memory := true
  reads := reads

theorem admits_unitTwo {s : State} {level : Level} {reads : List Reg} {base : Reg} (hl : s.supports level = true)
    (hu : unitUsable s.params 2 = true) (hs : s.settled [base] = true) (hr : reads ⊆ [base]) :
    Admits s (unitTwoTraits level reads) where
  level := of_decide_eq_true hl
  slot h := by cases h
  usable z hz := by cases hz; exact hu
  loaded := loadHazard_of_settled hs hr rfl

/-- Unit 2, memory and the record of accesses are all that a transfer of unit 2 writes. -/
theorem keepsButUnitTwo_retire (s : State) (level : Level) (reads : List Reg) (mem : List Host.Cell)
    (history : List (Nat × Note)) (u : CopUnit) :
    KeepsButUnitTwo s
      (s.retire (unitTwoTraits level reads) { s with mem := mem, history := history, cop2 := u } .none) where
  cop0 := rfl
  cop1 := rfl
  cop3 := rfl
  fccHigh := rfl
  fcsr := rfl
  gprs _ _ := rfl
  hilo := ⟨rfl, rfl, rfl⟩
  guards := ⟨rfl, rfl⟩
  link := keepsLink_retire ⟨rfl, rfl⟩
  advances := advances_retire rfl rfl rfl

/-- The rule of a load for unit 2: `f` is what the unit does with the value loaded. -/
def unitTwoLoadRule (base : Reg) (offset : BitVec 16) (n : Nat) (f : Nat → CopUnit → CopUnit) (s : State) : Effect :=
  s.load (s.address base offset) n fun w s₁ => State.complete { s₁ with cop2 := f w s₁.cop2 }

/-- The rule of a store from unit 2: `g` is the unit after it has supplied the data, and the data. -/
def unitTwoStoreRule (base : Reg) (offset : BitVec 16) (n : Nat) {w : Nat} (g : CopUnit → CopUnit × BitVec w)
    (s : State) : Effect :=
  s.store (s.address base offset) n (g s.cop2).2.toNat fun s₁ => (s₁.setCop2 (g s.cop2).1).complete

theorem exec_lwc2 (base rt : Reg) (offset : BitVec 16) (s : State) :
    exec (.lwc2 base rt offset) s = s.issue (unitTwoTraits .I [base])
      (unitTwoLoadRule base offset 4 fun v => Config.cop2LoadWord rt (BitVec.ofNat 32 v)) := rfl

theorem exec_ldc2 (base rt : Reg) (offset : BitVec 16) (s : State) :
    exec (.ldc2 base rt offset) s = s.issue (unitTwoTraits .II [])
      (unitTwoLoadRule base offset 8 fun v => Config.cop2LoadDouble rt (BitVec.ofNat 64 v)) := rfl

theorem exec_swc2 (base rt : Reg) (offset : BitVec 16) (s : State) :
    exec (.swc2 base rt offset) s = s.issue (unitTwoTraits .I [base])
      (unitTwoStoreRule base offset 4 (Config.cop2StoreWord rt)) := rfl

theorem exec_sdc2 (base rt : Reg) (offset : BitVec 16) (s : State) :
    exec (.sdc2 base rt offset) s = s.issue (unitTwoTraits .II [])
      (unitTwoStoreRule base offset 8 (Config.cop2StoreDouble rt)) := rfl

section Transfer
variable {s : State} {base : Reg} {offset : BitVec 16} {n pa : Nat} {type : AccessType} {level : Level}
  {reads : List Reg}

/-- A load supplies unit 2 with the value of the cells. -/
theorem issue_unitTwoLoadRule (hadm : Admits s (unitTwoTraits level reads))
    (hal : (s.address base offset).toNat % n = 0)
    (hacc : Accessible s .load (s.address base offset) pa type (dataCells s.params pa n))
    (f : Nat → CopUnit → CopUnit) :
    ∃ t, s.issue (unitTwoTraits level reads) (unitTwoLoadRule base offset n f) = .next t ∧
      t.cop2 = f (s.readCells (dataCells s.params pa n)) s.cop2 ∧ KeepsButUnitTwo s t ∧ KeepsMemory s t [] ∧
      Records s t type false (dataCells s.params pa n) :=
  ⟨_, issue_of_done hadm (load_eq hal hacc.translated hacc.unmixed hacc.quiet), rfl, keepsButUnitTwo_retire ..,
    fun _ _ => rfl, records_remember s .load type _⟩

/-- A store writes the data that unit 2 supplies to the cells. -/
theorem issue_unitTwoStoreRule (hadm : Admits s (unitTwoTraits level reads)) (hwf : Memory.wf s.mem = true)
    (hal : (s.address base offset).toNat % n = 0)
    (hacc : Accessible s .store (s.address base offset) pa type (dataCells s.params pa n)) {w : Nat}
    (g : CopUnit → CopUnit × BitVec w) :
    ∃ t, s.issue (unitTwoTraits level reads) (unitTwoStoreRule base offset n g) = .next t ∧
      t.mem = (s.writeCells (dataCells s.params pa n) (g s.cop2).2.toNat).mem ∧ t.cop2 = (g s.cop2).1 ∧
      KeepsButUnitTwo s t ∧ KeepsMemory s t (dataCells s.params pa n) ∧
      Records s t type true (dataCells s.params pa n) :=
  ⟨_, issue_of_done hadm (store_eq hal hacc.translated hacc.unmixed), rfl, rfl, keepsButUnitTwo_retire ..,
    keepsMemory_writeCells hwf _ _, records_remember s .store type _⟩

end Transfer

/-- Settles O53: each of the four is admitted, and is a load or a store of unit 2. -/
theorem unitTwoTransfers : Obligations.UnitTwoTransfers := by
  intro s base rt offset v pa type hv hsettled husable hwf
  subst hv
  have hword : Admits s (unitTwoTraits .I [base]) :=
    admits_unitTwo (supports_I s) husable hsettled fun _ h => h
  have hdouble : s.supports .II = true → Admits s (unitTwoTraits .II []) := fun hlevel =>
    admits_unitTwo hlevel husable hsettled (List.nil_subset _)
  refine ⟨fun hal hacc => ?lwc2, fun hal hacc => ?swc2, fun hal hlevel hacc => ?ldc2, fun hal hlevel hacc => ?sdc2⟩
  case lwc2 =>
    rw [exec_lwc2, ← ofNat_readCells_four]
    exact issue_unitTwoLoadRule hword hal hacc _
  case swc2 =>
    obtain ⟨t, hnext, hmem, hunit, hkeeps, hrest⟩ :=
      issue_unitTwoStoreRule hword hwf hal hacc (Config.cop2StoreWord rt)
    have hdata := (wordAt_congr hmem hkeeps.advances.params pa).trans (wordAt_writeCells hwf pa _)
    exact ⟨t, (exec_swc2 ..).trans hnext, hunit, hdata, hkeeps, hrest⟩
  case ldc2 =>
    rw [exec_ldc2, ← ofNat_readCells_eight]
    exact issue_unitTwoLoadRule (hdouble hlevel) hal hacc _
  case sdc2 =>
    obtain ⟨t, hnext, hmem, hunit, hkeeps, hrest⟩ :=
      issue_unitTwoStoreRule (hdouble hlevel) hwf hal hacc (Config.cop2StoreDouble rt)
    have hdata := (doubleAt_congr hmem hkeeps.advances.params pa).trans (doubleAt_writeCells hwf pa _)
    exact ⟨t, (exec_sdc2 ..).trans hnext, hunit, hdata, hkeeps, hrest⟩

end Sys2Proof.Machine
end

section
/-! SUPPORT. Memory: which writes of a rule leave memory and the record of accesses, and the check of alignment that
every load and store begins with. -/

namespace Sys2Proof.Machine

/-! ## What the writes of a rule leave of memory and of the record of accesses (20_memory.md R73, R94, R110) -/

/-- To remember a load changes no byte's being known as stored. -/
theorem stored_remember_load (s : State) (type : AccessType) (cells : List Nat) (a : Nat) :
    History.stored (s.remember .load type cells).history a = History.stored s.history a := by
  rw [History.stored, remember_history, find_record]
  split <;> rfl

section Writes
variable {s s' : State} {i : Instr} {d : Delay}

theorem Writes.mem (h : Writes s i s' d) (hs : isStore i = false) : s'.mem = s.mem := by
  cases h with
  | store hs' | conditionalStore _ hs' => simp [hs] at hs'
  | _ => rfl

/-- A byte becomes known as stored by a store only. -/
theorem Writes.stored (h : Writes s i s' d) (hs : isStore i = false) (a : Nat) :
    History.stored s'.history a = History.stored s.history a := by
  cases h with
  | store hs' | conditionalStore _ hs' => simp [hs] at hs'
  | load | loadUnit | linkedLoad => exact stored_remember_load s _ _ a
  | _ => rfl

/-- Only an access is remembered. -/
theorem Writes.history (h : Writes s i s' d) (ha : accessOf s i = none) : s'.history = s.history := by
  cases h with
  | load ha' | loadUnit ha' | store _ ha' | linkedLoad _ ha' | conditionalStore _ _ ha' => simp [ha] at ha'
  | _ => rfl

end Writes

/-- Settles O20: an exception and the retirement leave memory and the record of accesses, and so do the writes of an
instruction of the wrong kind. -/
theorem onlyStoresChangeMemory : Obligations.OnlyStoresChangeMemory := by
  intro i s t h
  rcases exec_next h with ⟨e, rfl⟩ | ⟨traits, s', d, -, hw, rfl⟩
  · exact ⟨fun _ => ⟨rfl, fun _ => rfl⟩, fun _ => rfl⟩
  · exact ⟨fun hs => ⟨hw.mem hs, hw.stored hs⟩, hw.history⟩

/-! ## Taking an exception -/

theorem raises_takeException (s : State) (e : Exception) : Raises s (s.takeException e) e where
  exception := ⟨_, rfl, rfl, rfl⟩
  inSlot h := by
    have hslot : s.delay.inSlot = true := by rcases h with ⟨target, h⟩ | h <;> rw [h] <;> rfl
    exact ⟨_, rfl, hslot, if_pos hslot⟩
  notInSlot h := by
    have hslot : s.delay.inSlot = false := by rw [h]; rfl
    exact ⟨_, rfl, hslot, by simp [hslot]⟩
  rest := rfl

/-- An admitted instruction whose rule raises takes the exception. -/
theorem issue_of_raise {s : State} {t : Traits} {e : Exception} {rule : State → Effect} (h : Admits s t)
    (hraise : rule s = .raise e) : s.issue t rule = .next (s.takeException e) := by
  rw [issue_of_admits h, hraise]

/-! ## The check of alignment (20_memory.md R83, 60_exceptions.md R442, R455) -/

theorem aligned_one (kind : AccessKind) (v : Word) (next : Effect) : aligned kind v 1 next = next :=
  if_pos (Nat.mod_one _)

theorem aligned_of_misaligned {v : Word} {n : Nat} (h : v.toNat % n ≠ 0) (kind : AccessKind) (next : Effect) :
    aligned kind v n next = .raise (.addressError kind v) :=
  if_neg h

/-- An indexed access in the region of its base goes on. -/
theorem inRegion_eq {s : State} {base : Reg} {v : Word} (h : regionBits v = regionBits (s.x base)) (next : Effect) :
    s.inRegion base v next = next :=
  if_pos h

theorem loadHazard_of_mayFollow {s : State} {i : Instr} {t : Traits} (ht : HasTraits s i t) (h : MayFollow s i) :
    s.loadHazard t = false := by
  unfold State.loadHazard
  rw [ht.reads, ht.merges]
  cases hd : s.loadDelay with
  | none => rfl
  | some d =>
    obtain ⟨hreads, hmerges⟩ := h d hd
    simpa [hreads] using hmerges

/-- An instruction that is ready and no branch is admitted. -/
theorem admits_of_ready {s : State} {i : Instr} {t : Traits} (ht : HasTraits s i t) (hb : isBranch i = false)
    (h : Ready s i) : Admits s t where
  level := by rw [ht.level]; exact of_decide_eq_true h.level
  slot hbranch := by simp [ht.branch, hb] at hbranch
  usable z hz := h.usable z (ht.unit ▸ hz)
  loaded := loadHazard_of_mayFollow ht h.follows

/-- No load or store is a jump or branch. -/
theorem isBranch_of_access {s : State} {i : Instr} {a : DataAccess} (ha : accessOf s i = some a) :
    isBranch i = false := by
  cases i with
  | j | jal | jr | jalr | beq | bne | blez | bgtz | beql | bnel | blezl | bgtzl | bltz | bgez | bltzl | bgezl | bltzal
  | bgezal | bltzall | bgezall => cases ha
  | _ => rfl

/-- Every load and store that is ready begins with the check of the alignment of its access. -/
theorem exec_eq_issue_aligned {i : Instr} {s : State} {a : DataAccess} (ha : accessOf s i = some a) (hr : Ready s i) :
    ∃ t rule next, exec i s = s.issue t rule ∧ HasTraits s i t ∧ rule s = aligned a.kind a.vaddr a.align next := by
  unfold exec
  cases i with
  | lb base rt offset | lbu base rt offset | lh base rt offset | lhu base rt offset | lw base rt offset =>
    cases ha
    exact ⟨_, _, _, rfl, { loads := loadDelay_of_loads rfl }, rfl⟩
  | lwu base rt offset | ld base rt offset | sb base rt offset | sh base rt offset | sw base rt offset
  | sd base rt offset | sc base rt offset | scd base rt offset | lwc1 base rt offset | lwc2 base rt offset
  | ldc1 base rt offset | ldc2 base rt offset | swc1 base rt offset | swc2 base rt offset | sdc1 base rt offset
  | sdc2 base rt offset =>
    cases ha
    exact ⟨_, _, _, rfl, {}, rfl⟩
  | ll base rt offset | lld base rt offset =>
    cases ha
    exact ⟨_, _, _, rfl, { memory := fun h => by cases h }, rfl⟩
  | lwl base rt offset =>
    cases ha
    exact ⟨_, _, _, rfl, { merges := mergeSource_left .., loads := loadDelay_of_loads rfl }, (aligned_one ..).symm⟩
  | lwr base rt offset =>
    cases ha
    exact ⟨_, _, _, rfl, { merges := mergeSource_right .., loads := loadDelay_of_loads rfl }, (aligned_one ..).symm⟩
  | swl base rt offset | swr base rt offset | ldl base rt offset | ldr base rt offset | sdl base rt offset
  | sdr base rt offset =>
    cases ha
    exact ⟨_, _, _, rfl, {}, (aligned_one ..).symm⟩
  | lwxc1 base index ft | ldxc1 base index ft | swxc1 base index ft | sdxc1 base index ft =>
    cases ha
    exact ⟨_, _, _, rfl, {}, inRegion_eq (hr.region base index rfl) _⟩
  | _ => cases ha

/-- A load or store whose alignment check fails raises Address Error, whatever the translation answers. -/
theorem exec_misaligned {i : Instr} {s : State} {a : DataAccess} (ha : accessOf s i = some a) (hr : Ready s i)
    (hv : a.vaddr.toNat % a.align ≠ 0) :
    ∃ t, exec i s = .next t ∧ Raises s t (.addressError a.kind a.vaddr) := by
  obtain ⟨t, rule, next, hexec, htraits, hrule⟩ := exec_eq_issue_aligned ha hr
  have hadm : Admits s t := admits_of_ready htraits (isBranch_of_access ha) hr
  have hraise : rule s = .raise (.addressError a.kind a.vaddr) := hrule.trans (aligned_of_misaligned hv _ next)
  exact ⟨_, hexec.trans (issue_of_raise hadm hraise), raises_takeException s _⟩

/-- Settles O41: each form is a load or a store of 2, 4 or 8 aligned bytes at its address. -/
theorem misalignedAccessesRaise : Obligations.MisalignedAccessesRaise := by
  intro s base rt index offset v w hv hw
  subst hv hw
  refine ⟨fun i hi hr => ?load, fun i hi hr => ?store, fun i hi hr => ?indexedLoad, fun i hi hr => ?indexedStore⟩
  case load =>
    rcases hi with ⟨hv, hi⟩ | ⟨hv, hi⟩ | ⟨hv, hi⟩
    · exact exec_misaligned (a := alignedAccess s .load _ 2) (by rcases hi with rfl | rfl <;> rfl) hr hv
    · exact exec_misaligned (a := alignedAccess s .load _ 4)
        (by rcases hi with rfl | rfl | rfl | rfl | rfl <;> rfl) hr hv
    · exact exec_misaligned (a := alignedAccess s .load _ 8) (by rcases hi with rfl | rfl | rfl | rfl <;> rfl) hr hv
  case store =>
    rcases hi with ⟨hv, hi⟩ | ⟨hv, hi⟩ | ⟨hv, hi⟩
    · exact exec_misaligned (a := alignedAccess s .store _ 2) (by rw [hi]; rfl) hr hv
    · exact exec_misaligned (a := alignedAccess s .store _ 4) (by rcases hi with rfl | rfl | rfl | rfl <;> rfl) hr hv
    · exact exec_misaligned (a := alignedAccess s .store _ 8) (by rcases hi with rfl | rfl | rfl | rfl <;> rfl) hr hv
  case indexedLoad =>
    rcases hi with ⟨hv, rfl⟩ | ⟨hv, rfl⟩ <;> exact exec_misaligned rfl hr hv
  case indexedStore =>
    rcases hi with ⟨hv, rfl⟩ | ⟨hv, rfl⟩ <;> exact exec_misaligned rfl hr hv

end Sys2Proof.Machine
end

section
/-! SUPPORT. The decoder and the encoder: a word has a layout just when its fields are those of the layout, so the word
of an instruction decodes to it, and every row of the decoder answers an instruction whose word it read. -/

namespace Sys2Proof

/-! ## The words of a layout (30_encoding.md R122 to R125, 47_coprocessor.md R426) -/

theorem iType_eq_iff {op : BitVec 6} {rs rt : Reg} {imm : BitVec 16} {w : Word32} :
    iType op rs rt imm = w ↔ opcodeOf w = op ∧ rsOf w = rs ∧ rtOf w = rt ∧ immediateOf w = imm := by
  refine ⟨by rintro rfl; simp, ?_⟩
  rintro ⟨rfl, rfl, rfl, rfl⟩
  simp only [iType, opcodeOf, rsOf, rtOf, immediateOf, BitVec.extractLsb'_append_extractLsb'_eq_extractLsb']
  simp

theorem jType_eq_iff {op : BitVec 6} {index : BitVec 26} {w : Word32} :
    jType op index = w ↔ opcodeOf w = op ∧ indexOf w = index := by
  refine ⟨by rintro rfl; simp, ?_⟩
  rintro ⟨rfl, rfl⟩
  simp only [jType, opcodeOf, indexOf, BitVec.extractLsb'_append_extractLsb'_eq_extractLsb']
  simp

theorem rType_eq_iff {op : BitVec 6} {rs rt rd : Reg} {sa : BitVec 5} {fn : BitVec 6} {w : Word32} :
    rType op rs rt rd sa fn = w ↔
      opcodeOf w = op ∧ rsOf w = rs ∧ rtOf w = rt ∧ rdOf w = rd ∧ saOf w = sa ∧ functionOf w = fn := by
  refine ⟨by rintro rfl; simp, ?_⟩
  rintro ⟨rfl, rfl, rfl, rfl, rfl, rfl⟩
  simp only [rType, opcodeOf, rsOf, rtOf, rdOf, saOf, functionOf,
    BitVec.extractLsb'_append_extractLsb'_eq_extractLsb']
  simp

theorem codeType_eq_iff {code : BitVec 20} {fn : BitVec 6} {w : Word32} :
    codeType code fn = w ↔ opcodeOf w = 0b000000#6 ∧ code20Of w = code ∧ functionOf w = fn := by
  refine ⟨by rintro rfl; simp, ?_⟩
  rintro ⟨hop, rfl, rfl⟩
  rw [codeType, ← hop]
  simp only [opcodeOf, code20Of, functionOf, BitVec.extractLsb'_append_extractLsb'_eq_extractLsb']
  simp

theorem trapType_eq_iff {rs rt : Reg} {code : BitVec 10} {fn : BitVec 6} {w : Word32} :
    trapType rs rt code fn = w ↔
      opcodeOf w = 0b000000#6 ∧ rsOf w = rs ∧ rtOf w = rt ∧ code10Of w = code ∧ functionOf w = fn := by
  refine ⟨by rintro rfl; simp, ?_⟩
  rintro ⟨hop, rfl, rfl, rfl, rfl⟩
  rw [trapType, ← hop]
  simp only [opcodeOf, rsOf, rtOf, code10Of, functionOf, BitVec.extractLsb'_append_extractLsb'_eq_extractLsb']
  simp

theorem copType_eq_iff {op : BitVec 6} {co : BitVec 1} {copFun : BitVec 25} {w : Word32} :
    copType op co copFun = w ↔ opcodeOf w = op ∧ coOf w = co ∧ copFunOf w = copFun := by
  refine ⟨by rintro rfl; simp, ?_⟩
  rintro ⟨rfl, rfl, rfl⟩
  simp only [copType, opcodeOf, coOf, copFunOf, BitVec.extractLsb'_append_extractLsb'_eq_extractLsb']
  simp

theorem movciType_eq_iff {rs : Reg} {cc : BitVec 3} {tf : BitVec 1} {rd : Reg} {w : Word32} :
    movciType rs cc tf rd = w ↔ opcodeOf w = 0b000000#6 ∧ rsOf w = rs ∧ ccOf w = cc ∧ bit17Of w = 0#1 ∧ tfOf w = tf ∧
      rdOf w = rd ∧ saOf w = 0#5 ∧ functionOf w = 0b000001#6 := by
  refine ⟨by rintro rfl; simp, ?_⟩
  rintro ⟨hop, rfl, rfl, h17, rfl, rfl, hsa, hfn⟩
  rw [movciType, ← hop, ← h17, ← hsa, ← hfn]
  simp only [opcodeOf, rsOf, ccOf, bit17Of, tfOf, rdOf, saOf, functionOf,
    BitVec.extractLsb'_append_extractLsb'_eq_extractLsb']
  simp

/-! ## The three opcodes with rows of their own (30_encoding.md R132, R133, R135) -/

theorem decode_of_special {w : Word32} (hop : opcodeOf w = 0b000000#6) : decode w = decodeSpecial w := by
  unfold decode; rw [hop]; rfl

theorem decode_of_regimm {w : Word32} (hop : opcodeOf w = 0b000001#6) : decode w = decodeRegimm w := by
  unfold decode; rw [hop]; rfl

theorem decode_of_cop1x {w : Word32} (hop : opcodeOf w = 0b010011#6) : decode w = decodeCop1x w := by
  unfold decode; rw [hop]; rfl

/-! ## From the instruction to its word -/

/-- The fields of the word of an instruction select its row, hold its operands, and are zero where the row requires
it. -/
theorem decode_of_encode {i : Instr} {w : Word32} (h : encode i = w) : decode w = .instr i := by
  cases i with
  | lb base rt offset | lbu base rt offset | lh base rt offset | lhu base rt offset | lw base rt offset
  | lwu base rt offset | ld base rt offset | sb base rt offset | sh base rt offset | sw base rt offset
  | sd base rt offset | lwl base rt offset | lwr base rt offset | swl base rt offset | swr base rt offset
  | ldl base rt offset | ldr base rt offset | sdl base rt offset | sdr base rt offset | ll base rt offset
  | lld base rt offset | sc base rt offset | scd base rt offset | lwc1 base rt offset | lwc2 base rt offset
  | ldc1 base rt offset | ldc2 base rt offset | swc1 base rt offset | swc2 base rt offset | sdc1 base rt offset
  | sdc2 base rt offset | addi rs rt imm | addiu rs rt imm | slti rs rt imm | sltiu rs rt imm | andi rs rt imm
  | ori rs rt imm | xori rs rt imm | daddi rs rt imm | daddiu rs rt imm | lui rt imm | beq rs rt offset
  | bne rs rt offset | blez rs offset | bgtz rs offset | beql rs rt offset | bnel rs rt offset | blezl rs offset
  | bgtzl rs offset | pref base hint offset =>
    obtain ⟨hop, hrs, hrt, himm⟩ := iType_eq_iff.1 h
    unfold decode
    rw [hop, hrs, hrt, himm]
    rfl
  | bltz rs offset | bgez rs offset | bltzl rs offset | bgezl rs offset | bltzal rs offset | bgezal rs offset
  | bltzall rs offset | bgezall rs offset | tgei rs imm | tgeiu rs imm | tlti rs imm | tltiu rs imm | teqi rs imm
  | tnei rs imm =>
    obtain ⟨hop, hrs, hrt, himm⟩ := iType_eq_iff.1 h
    rw [decode_of_regimm hop, decodeRegimm, hrs, hrt, himm]
    rfl
  | j index | jal index =>
    obtain ⟨hop, hindex⟩ := jType_eq_iff.1 h
    unfold decode
    rw [hop, hindex]
    rfl
  | cop0 co copFun | cop1 co copFun | cop2 co copFun =>
    obtain ⟨hop, hco, hfun⟩ := copType_eq_iff.1 h
    unfold decode
    rw [hop, hco, hfun]
    rfl
  | lwxc1 base index fd | ldxc1 base index fd | swxc1 base index fs | sdxc1 base index fs | prefx base index hint =>
    obtain ⟨hop, hrs, hrt, hrd, hsa, hfn⟩ := rType_eq_iff.1 h
    rw [decode_of_cop1x hop, decodeCop1x, hrs, hrt, hrd, hsa, hfn]
    rfl
  | syscall code | brk code =>
    obtain ⟨hop, hcode, hfn⟩ := codeType_eq_iff.1 h
    rw [decode_of_special hop, decodeSpecial, hcode, hfn]
    rfl
  | tge rs rt code | tgeu rs rt code | tlt rs rt code | tltu rs rt code | teq rs rt code | tne rs rt code =>
    obtain ⟨hop, hrs, hrt, hcode, hfn⟩ := trapType_eq_iff.1 h
    rw [decode_of_special hop, decodeSpecial, hrs, hrt, hcode, hfn]
    rfl
  | movci rs cc tf rd =>
    obtain ⟨hop, hrs, hcc, hbit, htf, hrd, hsa, hfn⟩ := movciType_eq_iff.1 h
    rw [decode_of_special hop, decodeSpecial, hrs, hcc, hbit, htf, hrd, hsa, hfn]
    rfl
  | add rs rt rd | addu rs rt rd | sub rs rt rd | subu rs rt rd | dadd rs rt rd | daddu rs rt rd | dsub rs rt rd
  | dsubu rs rt rd | slt rs rt rd | sltu rs rt rd | and rs rt rd | or rs rt rd | xor rs rt rd | nor rs rt rd
  | sll rt rd sa | srl rt rd sa | sra rt rd sa | dsll rt rd sa | dsrl rt rd sa | dsra rt rd sa | dsll32 rt rd sa
  | dsrl32 rt rd sa | dsra32 rt rd sa | sllv rs rt rd | srlv rs rt rd | srav rs rt rd | dsllv rs rt rd
  | dsrlv rs rt rd | dsrav rs rt rd | mult rs rt | multu rs rt | div rs rt | divu rs rt | dmult rs rt | dmultu rs rt
  | ddiv rs rt | ddivu rs rt | mfhi rd | mthi rs | mflo rd | mtlo rs | jr rs | jalr rs rd | sync stype
  | movn rs rt rd | movz rs rt rd =>
    obtain ⟨hop, hrs, hrt, hrd, hsa, hfn⟩ := rType_eq_iff.1 h
    rw [decode_of_special hop, decodeSpecial, hrs, hrt, hrd, hsa, hfn]
    rfl

/-! ## From the word to the instruction -/

/-- If the decoder's answer is an instruction, then `w` is its word. -/
def Decoded.IsFor (w : Word32) : Decoded → Prop
  | .instr i => encode i = w
  | .requiredZero _ | .cop1xArithmetic | .cop1xReserved | .reserved => True

theorem isFor_ifZero {w : Word32} {zero : Bool} {i : Instr} :
    (Decoded.ifZero zero i).IsFor w ↔ (zero = true → encode i = w) := by
  cases zero <;> simp [Decoded.ifZero, Decoded.IsFor]

/-- The rows of SPECIAL: MOVCI, SYSCALL and BREAK, and the traps have layouts of their own, the others are R-type. -/
theorem decodeSpecial_isFor {w : Word32} (hop : opcodeOf w = 0b000000#6) : (decodeSpecial w).IsFor w := by
  unfold decodeSpecial
  split
  case h_2 hfn => exact isFor_ifZero.2 fun hz => movciType_eq_iff.2 (by simp_all)
  case h_12 hfn | h_13 hfn => exact codeType_eq_iff.2 ⟨hop, rfl, hfn⟩
  case h_44 hfn | h_45 hfn | h_46 hfn | h_47 hfn | h_48 hfn | h_49 hfn =>
    exact trapType_eq_iff.2 ⟨hop, rfl, rfl, rfl, hfn⟩
  case h_56 => exact True.intro
  all_goals next hfn => exact isFor_ifZero.2 fun hz => rType_eq_iff.2 (by simp_all)

/-- The rows of REGIMM are I-type, with the row's selector as `rt`. -/
theorem decodeRegimm_isFor {w : Word32} (hop : opcodeOf w = 0b000001#6) : (decodeRegimm w).IsFor w := by
  unfold decodeRegimm
  split
  case h_15 => exact True.intro
  all_goals next hrt => exact iType_eq_iff.2 ⟨hop, rfl, hrt, rfl⟩

/-- The five rows of COP1X are R-type; its other words are no instructions. -/
theorem decodeCop1x_isFor {w : Word32} (hop : opcodeOf w = 0b010011#6) : (decodeCop1x w).IsFor w := by
  unfold decodeCop1x
  split
  case h_1 hfn | h_2 hfn | h_3 hfn | h_4 hfn | h_5 hfn =>
    exact isFor_ifZero.2 fun hz => rType_eq_iff.2 (by simp_all)
  all_goals exact True.intro

/-- The rows of the primary opcode: the jumps and the coprocessor operations have layouts of their own, the others are
I-type, of which BLEZ, BGTZ, LUI, BLEZL and BGTZL have a required-zero field. -/
theorem decode_isFor (w : Word32) : (decode w).IsFor w := by
  unfold decode
  split
  case h_1 hop => exact decodeSpecial_isFor hop
  case h_2 hop => exact decodeRegimm_isFor hop
  case h_3 hop => exact decodeCop1x_isFor hop
  case h_4 hop | h_5 hop => exact jType_eq_iff.2 ⟨hop, rfl⟩
  case h_18 hop | h_19 hop | h_20 hop => exact copType_eq_iff.2 ⟨hop, rfl, rfl⟩
  case h_8 hop | h_9 hop | h_17 hop | h_23 hop | h_24 hop =>
    exact isFor_ifZero.2 fun hz => iType_eq_iff.2 (by simp_all)
  case h_59 => exact True.intro
  all_goals next hop => exact iType_eq_iff.2 ⟨hop, rfl, rfl, rfl⟩

/-! ## The statements -/

/-- Settles O1. -/
theorem decodeOfEncode : Obligations.DecodeOfEncode :=
  fun _ => decode_of_encode rfl

/-- Settles O2, by what each row of the decoder answers. -/
theorem encodeOfDecode : Obligations.EncodeOfDecode := by
  intro w i h
  have hw : (decode w).IsFor w := decode_isFor w
  rwa [h] at hw

end Sys2Proof
end

section
/-! SUPPORT. The checks before the rule of an instruction, and the step at a word that is no instruction. -/

namespace Sys2Proof.Machine

/-! ## The level and the unit (30_encoding.md R141, 47_coprocessor.md R421, 60_exceptions.md R455) -/

theorem supports_IV {s : State} (h : s.params.archLevel = .IV) (level : Level) : s.supports level = true := by
  unfold State.supports
  rw [h]
  cases level <;> rfl

theorem lt_rank_of_not_supports {s : State} {level : Level} (h : s.supports level = false) :
    s.params.archLevel.rank < level.rank :=
  Nat.lt_of_not_le (of_decide_eq_false h)

/-- An instruction above `ArchLevel` raises Reserved Instruction, before any other check. -/
theorem issue_of_not_supports {s : State} {t : Traits} (h : s.supports t.level = false) (rule : State → Effect) :
    s.issue t rule = .next (s.takeException .reservedInstruction) :=
  if_pos (lt_rank_of_not_supports h)

/-- An instruction of the level that may stand where it does, and whose unit is not usable. -/
theorem issue_of_unusable {s : State} {t : Traits} {z : Fin 4} (hlevel : s.supports t.level = true)
    (hslot : t.branch = true → s.delay = .none) (hunit : t.unit = some z) (husable : unitUsable s.params z = false)
    (rule : State → Effect) : s.issue t rule = .next (s.takeException (.coprocessorUnusable z)) := by
  have hrank : ¬ s.params.archLevel.rank < t.level.rank := Nat.not_lt_of_le (of_decide_eq_true hlevel)
  have hbranch : ¬ (t.branch = true ∧ s.delay ≠ .none) := fun ⟨hb, hd⟩ => hd (hslot hb)
  simp [State.issue, hrank, hbranch, hunit, husable, Option.filter]

/-- An admitted instruction whose rule refuses is refused. -/
theorem issue_of_refuse {s : State} {t : Traits} {r : Refusal} {rule : State → Effect} (h : Admits s t)
    (hrefuse : rule s = .refuse r) : s.issue t rule = .refused r := by
  rw [issue_of_admits h, hrefuse]

/-- Settles O11: every instruction is issued with its level, which the first check compares. -/
theorem levelGate : Obligations.LevelGate := by
  intro i s
  refine ⟨fun hlevel => ?_, fun hIV => supports_IV hIV _⟩
  obtain ⟨t, rule, hexec, htraits, -⟩ := exec_eq_issue i s
  rw [← htraits.level] at hlevel
  exact ⟨_, hexec.trans (issue_of_not_supports hlevel rule), raises_takeException s _⟩

/-! ## Words that are no instructions (30_encoding.md R137, R140, 47_coprocessor.md R425) -/

/-- Settles O9: the step of a fetched word that no row selects takes the exception. -/
theorem reservedWordRaises : Obligations.ReservedWordRaises := by
  intro s pa hr hf hdec
  have hstep : step s = .next (s.takeException .reservedInstruction) := by
    rw [step_of_fetchable hr hf, hdec, State.runDecoded]
  exact ⟨_, hstep, raises_takeException s _⟩

/-- The traits of the COP1X words outside the table. -/
def cop1xTraits : Traits where
  level := .IV
  unit := some 1

theorem runDecoded_cop1xArithmetic (s : State) :
    s.runDecoded .cop1xArithmetic = s.issue cop1xTraits fun _ => .refuse .fpuInstruction := rfl

theorem runDecoded_cop1xReserved (s : State) :
    s.runDecoded .cop1xReserved = s.issue cop1xTraits fun _ => .raise .reservedInstruction := rfl

theorem admits_cop1x {s : State} (hlevel : s.supports .IV = true) (husable : unitUsable s.params 1 = true) :
    Admits s cop1xTraits where
  level := of_decide_eq_true hlevel
  slot h := by cases h
  usable z hz := by cases hz; exact husable
  loaded := loadHazard_of_settled (rs := []) (by cases h : s.loadDelay <;> simp [State.settled, h]) (fun _ h => h) rfl

theorem issue_cop1x_of_unusable {s : State} (hlevel : s.supports .IV = true) (husable : unitUsable s.params 1 = false)
    (rule : State → Effect) : s.issue cop1xTraits rule = .next (s.takeException (.coprocessorUnusable 1)) :=
  issue_of_unusable hlevel (fun h => by cases h) rfl husable rule

/-- A word with a non-zero required-zero bit: the level is checked first. -/
theorem runDecoded_requiredZero (s : State) (level : Level) :
    s.runDecoded (.requiredZero level) =
      if s.supports level then .refused .requiredZeroField else .next (s.takeException .reservedInstruction) := by
  cases hlevel : s.supports level with
  | false => exact if_pos (lt_rank_of_not_supports hlevel)
  | true => exact if_neg (Nat.not_lt_of_le (of_decide_eq_true hlevel))

/-- Settles O10: the level is checked first, then for the COP1X words the unit, and then the words are told apart. -/
theorem otherWords : Obligations.OtherWords := by
  intro s pa hr hf
  rw [step_of_fetchable hr hf]
  refine ⟨fun level hdec => ?requiredZero, fun hdec => ?arithmetic, fun hdec => ?reserved⟩
  case requiredZero =>
    rw [hdec, runDecoded_requiredZero]
    cases s.supports level with
    | true => rfl
    | false => exact ⟨_, rfl, raises_takeException s _⟩
  case arithmetic =>
    rw [hdec, runDecoded_cop1xArithmetic]
    split
    · next hlevel => exact ⟨_, issue_of_not_supports hlevel _, raises_takeException s _⟩
    · next hlevel =>
      have hIV : s.supports .IV = true := Bool.eq_true_of_not_eq_false hlevel
      split
      · next husable => exact ⟨_, issue_cop1x_of_unusable hIV husable _, raises_takeException s _⟩
      · next husable => exact issue_of_refuse (admits_cop1x hIV (Bool.eq_true_of_not_eq_false husable)) rfl
  case reserved =>
    rw [hdec, runDecoded_cop1xReserved]
    refine ⟨_, ?_, raises_takeException s _⟩
    cases hlevel : s.supports .IV with
    | false => exact issue_of_not_supports hlevel _
    | true =>
      cases husable : unitUsable s.params 1 with
      | false => exact issue_cop1x_of_unusable hlevel husable _
      | true => exact issue_of_raise (admits_cop1x hlevel husable) rfl

end Sys2Proof.Machine
end

section
/-! SUPPORT. The aligned loads and stores (40_load_store.md section 1): what a load and a store of general registers
leave when they complete, and what value goes to the register or to memory. -/

namespace Sys2Proof.Machine

/-! ## The value of one or two cells -/

/-- The value of one cell is its byte. -/
theorem ofNat_readCells_one (s : State) (pa : Nat) :
    BitVec.ofNat 8 (s.readCells (dataCells s.params pa 1)) = s.byteAt pa := by
  unfold State.readCells assemble
  split <;> simp [dataCells, bytesValue, State.byteAt]

/-- The value of two cells is the halfword of 20_memory.md R80. -/
theorem ofNat_readCells_two (s : State) (pa : Nat) :
    BitVec.ofNat 16 (s.readCells (dataCells s.params pa 2)) = s.halfAt pa := by
  have hvalue : ∀ b₀ b₁ : Byte, BitVec.ofNat 16 (bytesValue [b₀, b₁]) = b₁ ++ b₀ := fun b₀ b₁ => by
    rw [ofNat_bytesValue_cons 8]
    simp [bytesValue]
  unfold State.readCells State.halfAt assemble
  split <;> exact hvalue ..

/-- The low bits of a value stored in cells are read back. -/
theorem ofNat_readCells_writeCells {s : State} (h : Memory.wf s.mem = true) (pa n : Nat) (v : Word) :
    BitVec.ofNat (8 * n) ((s.writeCells (dataCells s.params pa n) v.toNat).readCells (dataCells s.params pa n)) =
      v.setWidth (8 * n) := by
  rw [readCells_writeCells h (nodup_dataCells ..), length_dataCells]
  refine BitVec.eq_of_toNat_eq ?_
  simp [Nat.pow_mul]

/-! ## General loads and stores: what is issued completes -/

/-- The traits of the loads and stores of general registers: no branch, no unit, no read of `HI` or `LO`. -/
structure PlainTraits (t : Traits) : Prop where
  branch : t.branch = false := by rfl
  unit : t.unit = none := by rfl
  readsHi : t.readsHi = false := by rfl
  readsLo : t.readsLo = false := by rfl

theorem PlainTraits.admits {s : State} {t : Traits} (h : PlainTraits t) (hlevel : s.supports t.level = true)
    (hloaded : s.loadHazard t = false) : Admits s t where
  level := of_decide_eq_true hlevel
  slot hb := by simp [h.branch] at hb
  usable z hz := by simp [h.unit] at hz
  loaded := hloaded

/-- An admitted load whose rule delivers `v` writes the register and remembers the cells. -/
theorem issue_of_loaded {s : State} {t : Traits} {rule : State → Effect} {type : AccessType} {cells : List Nat}
    {rt : Reg} {v : Word} (ht : PlainTraits t) (hadm : Admits s t)
    (hdone : rule s = (s.remember .load type cells).deliver rt v) :
    ∃ t', s.issue t rule = .next t' ∧ WritesGpr s t' rt v .none ∧ Records s t' type false cells := by
  refine ⟨_, issue_of_done hadm hdone, ?_, records_remember s .load type cells⟩
  exact
    { result := by
        by_cases hr : rt = 0#5
        · simp [hr]
        · rw [retire_x, x_setX_same _ _ _ hr, if_neg hr]
      gprs := fun r hr => x_setX_other _ _ _ _ fun h => hr (by simp [h])
      hilo := ⟨rfl, rfl, rfl⟩
      guards := ⟨by rw [retire_hiGuard, ht.readsHi]; rfl, by rw [retire_loGuard, ht.readsLo]; rfl⟩
      link := keepsLink_retire ⟨rfl, rfl⟩
      cops := ⟨rfl, rfl, rfl, rfl, rfl, rfl⟩
      memory := fun _ _ => rfl
      advances := advances_retire rfl rfl rfl }

/-- An admitted store whose rule writes `v` to the cells writes them only, and remembers them as stored. -/
theorem issue_of_stored {s : State} {t : Traits} {rule : State → Effect} {type : AccessType} {cells : List Nat}
    {v : Nat} (ht : PlainTraits t) (hadm : Admits s t) (hwf : Memory.wf s.mem = true)
    (hdone : rule s = ((s.remember .store type cells).writeCells cells v).complete) :
    ∃ t', s.issue t rule = .next t' ∧ WritesMemory s t' type cells ∧ t'.mem = (s.writeCells cells v).mem := by
  refine ⟨_, issue_of_done hadm hdone, ?_, rfl⟩
  exact
    { memory := keepsMemory_writeCells hwf cells v
      history := records_remember s .store type cells
      gprs := fun _ _ => rfl
      hilo := ⟨rfl, rfl, rfl⟩
      guards := ⟨by rw [retire_hiGuard, ht.readsHi]; rfl, by rw [retire_loGuard, ht.readsLo]; rfl⟩
      link := keepsLink_retire ⟨rfl, rfl⟩
      cops := ⟨rfl, rfl, rfl, rfl, rfl, rfl⟩
      advances := advances_retire rfl rfl rfl }

/-! ## The general loads and stores that are admitted -/

theorem settled_nil (s : State) : s.settled [] = true := by
  simp [State.settled]

/-- A load of MIPS I may not have its base in the load delay slot. -/
theorem admits_loadI {s : State} {base : Reg} (h : s.settled [base] = true) (rt : Reg) :
    Admits s { memory := true, reads := [base], loads := some rt } :=
  PlainTraits.admits {} (supports_I s) (loadHazard_of_settled h (fun _ h => h) rfl)

/-- A store of MIPS I may have neither its base nor its data in the load delay slot. -/
theorem admits_storeI {s : State} {base rt : Reg} (h : s.settled [base, rt] = true) :
    Admits s { memory := true, reads := [base, rt] } :=
  PlainTraits.admits {} (supports_I s) (loadHazard_of_settled h (fun _ h => h) rfl)

/-- MIPS III has no load delay slot. -/
theorem admits_accessIII {s : State} (hlevel : s.supports .III = true) :
    Admits s { level := .III, memory := true } :=
  PlainTraits.admits {} hlevel (loadHazard_of_settled (settled_nil s) (List.nil_subset _) rfl)

/-! ## Aligned loads and stores (40_load_store.md R165 to R175) -/

section Aligned
variable {s : State} {base rt : Reg} {offset : BitVec 16} {n pa : Nat} {type : AccessType} {i : Instr} {t : Traits}

/-- An aligned load delivers what `f` makes of the value of the cells. -/
theorem exec_alignedLoad (f : Nat → Word)
    (hexec : exec i s = s.issue t fun s => s.load (s.address base offset) n fun w s' => s'.deliver rt (f w))
    (ht : PlainTraits t) (hadm : Admits s t) (hal : (s.x base + sext64 offset).toNat % n = 0)
    (hacc : Accessible s .load (s.x base + sext64 offset) pa type (dataCells s.params pa n)) :
    ∃ t', exec i s = .next t' ∧ WritesGpr s t' rt (f (s.readCells (dataCells s.params pa n))) .none ∧
      Records s t' type false (dataCells s.params pa n) := by
  rw [hexec]
  exact issue_of_loaded ht hadm (load_eq hal hacc.translated hacc.unmixed hacc.quiet)

/-- An aligned store leaves the low bytes of the register in the cells. -/
theorem exec_alignedStore
    (hexec : exec i s = s.issue t fun s => s.store (s.address base offset) n (s.x rt).toNat State.complete)
    (ht : PlainTraits t) (hadm : Admits s t) (hwf : Memory.wf s.mem = true)
    (hal : (s.x base + sext64 offset).toNat % n = 0)
    (hacc : Accessible s .store (s.x base + sext64 offset) pa type (dataCells s.params pa n)) :
    ∃ t', exec i s = .next t' ∧ WritesMemory s t' type (dataCells s.params pa n) ∧
      BitVec.ofNat (8 * n) (t'.readCells (dataCells t'.params pa n)) = (s.x rt).setWidth (8 * n) := by
  rw [hexec]
  obtain ⟨t', hnext, hwrites, hmem⟩ := issue_of_stored ht hadm hwf
    (rule := fun s => s.store (s.address base offset) n (s.x rt).toNat State.complete)
    (store_eq hal hacc.translated hacc.unmixed)
  refine ⟨t', hnext, hwrites, ?_⟩
  rw [← ofNat_readCells_writeCells hwf pa n (s.x rt)]
  simp only [State.readCells, hwrites.advances.params, hmem, writeCells_params]

end Aligned

/-- Settles O39: each of the seven is a load of 1, 2, 4 or 8 aligned bytes with its extension. -/
theorem alignedLoads : Obligations.AlignedLoads := by
  intro s base rt offset pa type hsettled
  have hadm := admits_loadI hsettled rt
  rw [← ofNat_readCells_one, ← ofNat_readCells_two, ← ofNat_readCells_four, ← ofNat_readCells_eight]
  refine ⟨fun hacc => ⟨?lb, ?lbu⟩, fun hal hacc => ⟨?lh, ?lhu⟩, fun hal hacc => ⟨?lw, fun hlevel => ?lwu⟩,
    fun hal hlevel hacc => ?ld⟩
  case lb => exact exec_alignedLoad (fun w => sext64 (BitVec.ofNat 8 w)) rfl {} hadm (Nat.mod_one _) hacc
  case lbu => exact exec_alignedLoad (fun w => zext64 (BitVec.ofNat 8 w)) rfl {} hadm (Nat.mod_one _) hacc
  case lh => exact exec_alignedLoad (fun w => sext64 (BitVec.ofNat 16 w)) rfl {} hadm hal hacc
  case lhu => exact exec_alignedLoad (fun w => zext64 (BitVec.ofNat 16 w)) rfl {} hadm hal hacc
  case lw => exact exec_alignedLoad (fun w => sext64 (BitVec.ofNat 32 w)) rfl {} hadm hal hacc
  case lwu => exact exec_alignedLoad (fun w => zext64 (BitVec.ofNat 32 w)) rfl {} (admits_accessIII hlevel) hal hacc
  case ld => exact exec_alignedLoad (fun w => BitVec.ofNat 64 w) rfl {} (admits_accessIII hlevel) hal hacc

/-- Settles O40: each of the four is a store of 1, 2, 4 or 8 aligned bytes of the register. -/
theorem alignedStores : Obligations.AlignedStores := by
  intro s base rt offset pa type hsettled hwf
  have hadm := admits_storeI hsettled
  simp only [← ofNat_readCells_one, ← ofNat_readCells_two, ← ofNat_readCells_four, ← ofNat_readCells_eight]
  refine ⟨fun hacc => ?sb, fun hal hacc => ?sh, fun hal hacc => ?sw, fun hal hlevel hacc => ?sd⟩
  case sb => exact exec_alignedStore (n := 1) rfl {} hadm hwf (Nat.mod_one _) hacc
  case sh => exact exec_alignedStore (n := 2) rfl {} hadm hwf hal hacc
  case sw => exact exec_alignedStore (n := 4) rfl {} hadm hwf hal hacc
  case sd =>
    rw [← BitVec.setWidth_eq (s.x rt)]
    exact exec_alignedStore (n := 8) rfl {} (admits_accessIII hlevel) hwf hal hacc

end Sys2Proof.Machine
end

section
/-! SUPPORT. The exceptions of every data access, in their order (40_load_store.md R161), and the words that the spec
writes out. -/

namespace Sys2Proof.Machine

/-! ## The stages of an access -/

theorem translated_of_error {s : State} {kind : AccessKind} {v : Word} {e : Exception}
    (h : translate s.params kind v = .error e) (next : Nat → AccessType → Effect) :
    s.translated kind v next = .raise e := by
  rw [State.translated, h]

theorem translated_of_ok {s : State} {kind : AccessKind} {v : Word} {pa : Nat} {type : AccessType}
    (h : translate s.params kind v = .ok (pa, type)) (next : Nat → AccessType → Effect) :
    s.translated kind v next = next pa type := by
  rw [State.translated, h]

theorem mixed_iff {h : List (Nat × Note)} {type : AccessType} {cells : List Nat} :
    History.mixed h type cells = true ↔ ∃ c ∈ cells, ∃ n, Assoc.find h c = some n ∧ n.type ≠ type := by
  simp [History.mixed, Option.any_eq_true]

theorem perform_of_mixed {s : State} {type : AccessType} {cells : List Nat}
    (h : History.mixed s.history type cells = true) (kind : AccessKind) (pa : Nat) (next : State → Effect) :
    s.perform kind pa type cells next = .refuse .mixedAccessTypes :=
  if_pos h

theorem perform_of_busError {s : State} {kind : AccessKind} {pa : Nat} {type : AccessType} {cells : List Nat}
    (h : ¬ History.mixed s.history type cells = true) (hbus : busErrorAt s.params kind pa = true)
    (next : State → Effect) : s.perform kind pa type cells next = .raise (.busError kind) :=
  (if_neg h).trans (if_pos hbus)

theorem perform_of_accessible {s : State} {kind : AccessKind} {v : Word} {pa : Nat} {type : AccessType}
    {cells : List Nat} (h : Accessible s kind v pa type cells) (next : State → Effect) :
    s.perform kind pa type cells next = next (s.remember kind type cells) := by
  rw [State.perform, h.unmixed, h.quiet]
  rfl

/-! ## Conditional stores that are certain to store -/

/-- The instruction at `pc` and all since the linked load lie in the window. -/
theorem Guaranteed.inWindow {s : State} {v : Word} {size : LinkSize} {l : Link} (h : Guaranteed s v size l) :
    l.inWindow s.pc = true := by
  have hwindow := h.window
  have habove := h.above
  have hbelow := h.below
  unfold Link.inWindow
  split <;> split <;> exact decide_eq_true (by omega)

theorem Guaranteed.succeeds {s : State} {v : Word} {size : LinkSize} {l : Link} (h : Guaranteed s v size l) :
    s.conditionalSucceeds l = true := by
  simp [State.conditionalSucceeds, Link.mayFail, h.llbit, h.undisturbed, h.inWindow]

/-! ## Every load and store -/

/-- `body`, the rule from the translated address on, performs the access `a` there. -/
def PerformsAt (s : State) (i : Instr) (a : DataAccess) (body : Nat → AccessType → Effect) : Prop :=
  ∀ pa type, (isLinked i = true → type ≠ .uncached) →
    (∀ size, conditionalSize i = some size → ∃ l, Guaranteed s a.vaddr size l) →
    ∃ next, body pa type = s.perform a.kind pa type (a.cells pa) next

/-- A conditional store that is certain to store performs its access. -/
theorem conditionalStore_performs {s : State} {i : Instr} {size : LinkSize} (hi : isLinked i = true)
    (hsize : conditionalSize i = some size) (v : Word) (rt : Reg) :
    ∃ body, s.conditionalStore v size rt = aligned .store v size.bytes (s.translated .store v body) ∧
      PerformsAt s i (alignedAccess s .store v size.bytes) body := by
  refine ⟨_, rfl, fun pa type hcached hsure => ?_⟩
  obtain ⟨l, hl⟩ := hsure size hsize
  have hmatches : ¬ (l.vaddr ≠ v ∨ l.size ≠ size) := by simp [hl.vaddr, hl.size, alignedAccess]
  rw [if_neg (hcached hi), hl.link]
  simp only [if_neg hmatches, if_pos hl.succeeds]
  exact ⟨_, rfl⟩

/-- Every load and store that is ready checks the alignment of its access, translates, and performs the access. -/
theorem exec_eq_issue_access {i : Instr} {s : State} {a : DataAccess} (ha : accessOf s i = some a) (hr : Ready s i) :
    ∃ t rule body, exec i s = s.issue t rule ∧ HasTraits s i t ∧
      rule s = aligned a.kind a.vaddr a.align (s.translated a.kind a.vaddr body) ∧ PerformsAt s i a body := by
  unfold exec
  cases i with
  | lb base rt offset | lbu base rt offset | lh base rt offset | lhu base rt offset | lw base rt offset =>
    cases ha
    exact ⟨_, _, _, rfl, { loads := loadDelay_of_loads rfl }, rfl, fun _ _ _ _ => ⟨_, rfl⟩⟩
  | lwu base rt offset | ld base rt offset | sb base rt offset | sh base rt offset | sw base rt offset
  | sd base rt offset | lwc1 base rt offset | lwc2 base rt offset | ldc1 base rt offset | ldc2 base rt offset
  | swc1 base rt offset | swc2 base rt offset | sdc1 base rt offset | sdc2 base rt offset =>
    cases ha
    exact ⟨_, _, _, rfl, {}, rfl, fun _ _ _ _ => ⟨_, rfl⟩⟩
  | ll base rt offset | lld base rt offset =>
    cases ha
    exact ⟨_, _, _, rfl, { memory := fun h => by cases h }, rfl, fun _ _ hcached _ => ⟨_, if_neg (hcached rfl)⟩⟩
  | sc base rt offset =>
    cases ha
    obtain ⟨body, hrule, hbody⟩ := conditionalStore_performs (s := s) (i := .sc base rt offset) rfl rfl _ rt
    exact ⟨_, _, body, rfl, {}, hrule, hbody⟩
  | scd base rt offset =>
    cases ha
    obtain ⟨body, hrule, hbody⟩ := conditionalStore_performs (s := s) (i := .scd base rt offset) rfl rfl _ rt
    exact ⟨_, _, body, rfl, {}, hrule, hbody⟩
  | lwl base rt offset =>
    cases ha
    exact ⟨_, _, _, rfl, { merges := mergeSource_left .., loads := loadDelay_of_loads rfl }, (aligned_one ..).symm,
      fun _ _ _ _ => ⟨_, rfl⟩⟩
  | lwr base rt offset =>
    cases ha
    exact ⟨_, _, _, rfl, { merges := mergeSource_right .., loads := loadDelay_of_loads rfl }, (aligned_one ..).symm,
      fun _ _ _ _ => ⟨_, rfl⟩⟩
  | swl base rt offset | swr base rt offset | ldl base rt offset | ldr base rt offset | sdl base rt offset
  | sdr base rt offset =>
    cases ha
    exact ⟨_, _, _, rfl, {}, (aligned_one ..).symm, fun _ _ _ _ => ⟨_, rfl⟩⟩
  | lwxc1 base index ft | ldxc1 base index ft | swxc1 base index ft | sdxc1 base index ft =>
    cases ha
    exact ⟨_, _, _, rfl, {}, inRegion_eq (hr.region base index rfl) _, fun _ _ _ _ => ⟨_, rfl⟩⟩
  | _ => cases ha

/-- Settles O42: every load and store goes through the alignment check, the translation and the access, in this
order. -/
theorem dataAccessExceptions : Obligations.DataAccessExceptions := by
  intro i s a ha hr
  obtain ⟨t, rule, body, hexec, htraits, hrule, hbody⟩ := exec_eq_issue_access ha hr
  have hadm : Admits s t := admits_of_ready htraits (isBranch_of_access ha) hr
  have hraises : ∀ e, rule s = .raise e → ∃ t, exec i s = .next t ∧ Raises s t e := fun e hraise =>
    ⟨_, hexec.trans (issue_of_raise hadm hraise), raises_takeException s e⟩
  refine ⟨exec_misaligned ha hr, fun hal e he => ?fault, fun hal pa type hok hcached hsure => ?access⟩
  all_goals rw [aligned, if_pos hal] at hrule
  case fault => exact hraises e (hrule.trans (translated_of_error he body))
  case access =>
    obtain ⟨next, hperform⟩ := hbody pa type hcached hsure
    rw [translated_of_ok hok, hperform] at hrule
    refine ⟨fun hmixed => ?mixed, fun hsame hbus => ?busError⟩
    case mixed =>
      exact hexec.trans (issue_of_refuse hadm (hrule.trans (perform_of_mixed (mixed_iff.2 hmixed) _ _ _)))
    case busError =>
      have hunmixed : ¬ History.mixed s.history type (a.cells pa) = true := fun hmixed => by
        obtain ⟨c, hc, n, hn, hne⟩ := mixed_iff.1 hmixed
        exact hne (hsame c hc n hn)
      exact hraises _ (hrule.trans (perform_of_busError hunmixed hbus next))

/-! ## Words written out in the rules -/

/-- Settles O3: each word is decoded by itself. -/
theorem decodesSpecWords : Obligations.DecodesSpecWords := by
  unfold Obligations.DecodesSpecWords
  refine ⟨?lb, ?lwl, ?sw, ?ll, ?lwc1, ?lwxc1, ?addi, ?add, ?sll, ?mult, ?beq, ?jalr, ?tge, ?cop2⟩
  all_goals decide

end Sys2Proof.Machine
end

section
/-! SUPPORT. Values byte by byte: the bytes of a number and of cells, which bytes of memory the left and the right forms
of the unaligned loads and stores select (40_load_store.md R181), and how they are merged into a register. -/

namespace Sys2Proof.Machine

/-! ## The bytes of a value -/

/-- Byte `j` of a value; byte 0 is the least significant. -/
def byteNo (v j : Nat) : Byte := BitVec.ofNat 8 (v / 2 ^ (8 * j))

theorem getLsbD_byteNo (v j b : Nat) : (byteNo v j).getLsbD b = (decide (b < 8) && v.testBit (b + 8 * j)) := by
  rw [byteNo, BitVec.getLsbD_ofNat, Nat.testBit_div_two_pow]

/-- The bytes of a bit vector are those of the value it was made of. -/
theorem extractLsb'_ofNat_eq_byteNo {w j : Nat} (h : 8 * j + 8 ≤ w) (v : Nat) :
    (BitVec.ofNat w v).extractLsb' (8 * j) 8 = byteNo v j := by
  refine BitVec.eq_of_getLsbD_eq fun b hb => ?_
  rw [BitVec.getLsbD_extractLsb', BitVec.getLsbD_ofNat, getLsbD_byteNo, Nat.add_comm (8 * j),
    decide_eq_true (show b + 8 * j < w by omega), Bool.true_and]

theorem extractLsb'_eq_byteNo {w : Nat} (x : BitVec w) (j : Nat) : x.extractLsb' (8 * j) 8 = byteNo x.toNat j := by
  refine BitVec.eq_of_getLsbD_eq fun b _ => ?_
  rw [BitVec.getLsbD_extractLsb', getLsbD_byteNo, Nat.add_comm (8 * j)]
  rfl

theorem byteNo_mod {j n : Nat} (h : j < n) (v : Nat) : byteNo (v % 2 ^ (8 * n)) j = byteNo v j := by
  refine BitVec.eq_of_getLsbD_eq fun b hb => ?_
  rw [getLsbD_byteNo, getLsbD_byteNo, Nat.testBit_mod_two_pow, decide_eq_true (show b + 8 * j < 8 * n by omega),
    Bool.true_and]

theorem byteNo_div (v j n : Nat) : byteNo (v / 2 ^ (8 * n)) j = byteNo v (j + n) := by
  refine BitVec.eq_of_getLsbD_eq fun b _ => ?_
  rw [getLsbD_byteNo, getLsbD_byteNo, Nat.testBit_div_two_pow, show b + 8 * j + 8 * n = b + 8 * (j + n) by omega]

/-- Of a value put above `n` bytes of another. -/
theorem byteNo_add {low n : Nat} (h : low < 2 ^ (8 * n)) (high j : Nat) :
    byteNo (high * 2 ^ (8 * n) + low) j = if j < n then byteNo low j else byteNo high (j - n) := by
  refine BitVec.eq_of_getLsbD_eq fun b hb => ?_
  rw [getLsbD_byteNo, Nat.mul_comm, Nat.testBit_two_pow_mul_add _ h]
  split <;> split
  · rw [getLsbD_byteNo]
  · omega
  · omega
  · rw [getLsbD_byteNo, show b + 8 * j - 8 * n = b + 8 * (j - n) by omega]

theorem byteNo_bytesValue {bs : List Byte} {j : Nat} (h : j < bs.length) : byteNo (bytesValue bs) j = bs[j] := by
  induction bs generalizing j with
  | nil => cases h
  | cons b bs ih =>
    have hvalue : bytesValue (b :: bs) = bytesValue bs * 2 ^ (8 * 1) + b.toNat := by rw [bytesValue]; omega
    rw [hvalue, byteNo_add b.isLt]
    cases j with
    | zero => simp [byteNo]
    | succ j => exact ih (Nat.lt_of_succ_lt_succ h)

theorem bytesValue_lt (bs : List Byte) : bytesValue bs < 2 ^ (8 * bs.length) := by
  induction bs with
  | nil => decide
  | cons b bs ih =>
    have hb := b.isLt
    rw [bytesValue, List.length_cons, Nat.mul_add, Nat.pow_add]
    omega

/-! ## The bytes of the value of cells (20_memory.md R80) -/

theorem readCells_lt (s : State) (cells : List Nat) : s.readCells cells < 2 ^ (8 * cells.length) := by
  unfold State.readCells assemble
  split
  · simpa using bytesValue_lt (cells.map (Memory.read s.mem)).reverse
  · simpa using bytesValue_lt (cells.map (Memory.read s.mem))

theorem byteNo_readCells (s : State) (pa : Nat) {n j : Nat} (h : j < n) :
    byteNo (s.readCells (dataCells s.params pa n)) j =
      s.byteAt (if bigEndianCPU s.params then pa + (n - 1 - j) else pa + j) := by
  unfold State.readCells assemble
  split <;> rw [byteNo_bytesValue (by simpa using h)] <;> simp [dataCells, State.byteAt]

/-- The bytes of a word in memory. -/
theorem extractLsb'_wordAt (s : State) (pa : Nat) {j : Nat} (h : j < 4) :
    (s.wordAt pa).extractLsb' (8 * j) 8 = s.byteAt (if bigEndianCPU s.params then pa + (3 - j) else pa + j) := by
  rw [← ofNat_readCells_four, extractLsb'_ofNat_eq_byteNo (by omega), byteNo_readCells s pa h]

/-- A word is known by its four bytes. -/
theorem word_ext {x y : Word32} (h : ∀ j < 4, x.extractLsb' (8 * j) 8 = y.extractLsb' (8 * j) 8) : x = y := by
  refine BitVec.eq_of_getLsbD_eq fun b hb => ?_
  have hbyte := congrArg (BitVec.getLsbD · (b % 8)) (h (b / 8) (by omega))
  simpa [BitVec.getLsbD_extractLsb', Nat.mod_lt, Nat.div_add_mod] using hbyte

/-! ## The bytes selected (40_load_store.md R181) -/

/-- The byte of a register, from the least significant on, at which the selected bytes begin. -/
def firstSelected (p : Params) (side : Side) (v : Word) (n : Nat) : Nat :=
  match side with
  | .left => skippedCount p .left v n
  | .right => 0

/-- The physical address that byte `j` of a register goes with, when it is selected by the access at `pa`. -/
def sideAddress (p : Params) (side : Side) (pa n j : Nat) : Nat :=
  match side with
  | .left => if bigEndianCPU p then pa + (n - 1 - j) else pa - (n - 1 - j)
  | .right => if bigEndianCPU p then pa - j else pa + j

theorem length_selectedCells (p : Params) (side : Side) (v : Word) (pa n : Nat) :
    (selectedCells p side v pa n).length = selectedCount p side v n := length_dataCells ..

theorem nodup_selectedCells (p : Params) (side : Side) (v : Word) (pa n : Nat) :
    (selectedCells p side v pa n).Nodup := nodup_dataCells ..

section Selected
variable {p : Params} {side : Side} {v : Word} {n j : Nat}

theorem selectedCount_left (p : Params) (v : Word) (n : Nat) :
    selectedCount p .left v n = if bigEndianCPU p then n - v.toNat % n else v.toNat % n + 1 := rfl

theorem selectedCount_right (p : Params) (v : Word) (n : Nat) :
    selectedCount p .right v n = if bigEndianCPU p then v.toNat % n + 1 else n - v.toNat % n := by
  unfold selectedCount selectsUpward offsetIn
  cases bigEndianCPU p <;> rfl

theorem skippedCount_left (hn : 0 < n) :
    skippedCount p .left v n = if bigEndianCPU p then v.toNat % n else n - 1 - v.toNat % n := by
  have hlt := Nat.mod_lt v.toNat hn
  rw [skippedCount, selectedCount_left]
  split <;> omega

theorem selectedCount_le (hn : 0 < n) : selectedCount p side v n ≤ n := by
  have hlt := Nat.mod_lt v.toNat hn
  unfold selectedCount offsetIn
  split <;> omega

/-- The bytes that the right forms select. -/
theorem lt_selectedCount_right (hn : 0 < n) :
    j < selectedCount p .right v n ↔ if bigEndianCPU p then j ≤ v.toNat % n else j ≤ n - 1 - v.toNat % n := by
  have hlt := Nat.mod_lt v.toNat hn
  rw [selectedCount_right]
  split <;> omega

/-- No selected byte lies above the object. -/
theorem firstSelected_add_le (hn : 0 < n) : firstSelected p side v n + selectedCount p side v n ≤ n := by
  have hle := selectedCount_le (p := p) (side := side) (v := v) hn
  cases side with
  | left => simp only [firstSelected, skippedCount]; omega
  | right => simpa [firstSelected] using hle

/-- The left forms select the bytes from the first selected one up. -/
theorem lt_of_left (hn : 0 < n) (hj : j < n) : j < firstSelected p .left v n + selectedCount p .left v n := by
  have hle := selectedCount_le (p := p) (side := .left) (v := v) hn
  simp only [firstSelected, skippedCount]
  omega

end Selected

/-- A selected byte of the value of the selected cells is the byte at its address. -/
theorem byteNo_readCells_selected (s : State) {side : Side} {v : Word} {pa n j : Nat} (hn : 0 < n)
    (hpa : v.toNat % n ≤ pa) (hlow : firstSelected s.params side v n ≤ j)
    (hhigh : j < firstSelected s.params side v n + selectedCount s.params side v n) :
    byteNo (s.readCells (selectedCells s.params side v pa n)) (j - firstSelected s.params side v n) =
      s.byteAt (sideAddress s.params side pa n j) := by
  have hlt := Nat.mod_lt v.toNat hn
  rw [selectedCells, byteNo_readCells _ _ (by omega)]
  congr 1
  cases side with
  | left =>
    simp only [firstSelected, skippedCount_left hn, selectedCount_left, sideAddress, selectsUpward, offsetIn]
      at hlow hhigh ⊢
    by_cases hend : bigEndianCPU s.params = true <;> simp [hend] at hlow hhigh ⊢ <;> omega
  | right =>
    simp only [firstSelected, selectedCount_right, sideAddress, selectsUpward, offsetIn] at hlow hhigh ⊢
    by_cases hend : bigEndianCPU s.params = true <;> simp [hend] at hhigh ⊢
    omega

/-- The offset of an address in its object is that of its translation: there are as many bytes below. -/
theorem offset_le_of_translate {p : Params} {kind : AccessKind} {v : Word} {pa n : Nat} {type : AccessType}
    (hp : 3 ≤ p.psize) (hn : n = 4 ∨ n = 8) (ht : translate p kind v = .ok (pa, type)) : v.toNat % n ≤ pa := by
  obtain ⟨-, hlow⟩ := translate_lt hp ht
  rcases hn with rfl | rfl <;> omega

/-! ## Merging into a register, and selecting from it -/

theorem extractLsb'_mergeLeft {w j : Nat} (hj : 8 * j + 8 ≤ w) (skipped value : Nat) (old : BitVec w) :
    (mergeLeft w skipped value old).extractLsb' (8 * j) 8 =
      if skipped ≤ j then byteNo value (j - skipped) else old.extractLsb' (8 * j) 8 := by
  rw [mergeLeft, extractLsb'_ofNat_eq_byteNo hj, byteNo_add (Nat.mod_lt _ (Nat.two_pow_pos _)), extractLsb'_eq_byteNo]
  by_cases h : skipped ≤ j
  · rw [if_neg (Nat.not_lt.2 h), if_pos h]
  · rw [if_pos (Nat.lt_of_not_le h), if_neg h, byteNo_mod (Nat.lt_of_not_le h)]

theorem extractLsb'_mergeRight {w j selected value : Nat} (hj : 8 * j + 8 ≤ w) (hv : value < 2 ^ (8 * selected))
    (old : BitVec w) :
    (mergeRight w selected value old).extractLsb' (8 * j) 8 =
      if j < selected then byteNo value j else old.extractLsb' (8 * j) 8 := by
  rw [mergeRight, extractLsb'_ofNat_eq_byteNo hj, byteNo_add hv, extractLsb'_eq_byteNo]
  by_cases h : j < selected
  · rw [if_pos h, if_pos h]
  · rw [if_neg h, if_neg h, byteNo_div, Nat.sub_add_cancel (Nat.le_of_not_lt h)]

/-- The selected bytes of a register value, in their places in it. -/
theorem byteNo_storedPart {p : Params} {side : Side} {v : Word} {n j : Nat} (value : Nat)
    (hlow : firstSelected p side v n ≤ j) (hhigh : j < firstSelected p side v n + selectedCount p side v n) :
    byteNo (storedPart p side v n value) (j - firstSelected p side v n) = byteNo value j := by
  cases side with
  | left => exact (byteNo_div ..).trans (congrArg _ (Nat.sub_add_cancel hlow))
  | right => exact byteNo_mod (by simpa [firstSelected] using hhigh) value

end Sys2Proof.Machine
end

section
/-! SUPPORT. The unaligned loads (40_load_store.md R182, R183, R186, R187), byte by byte, and the pair that loads an
unaligned word (R190). -/

namespace Sys2Proof.Machine

/-! ## Left and right loads, byte by byte (40_load_store.md R182, R183, R186, R187) -/

section Loaded
variable {s : State} {kind : AccessKind} {v : Word} {n pa w j : Nat} {type : AccessType}

theorem extractLsb'_loadedLeft (hp : 3 ≤ s.params.psize) (hn : n = 4 ∨ n = 8)
    (ht : translate s.params kind v = .ok (pa, type)) (hw : 8 * n ≤ w) (hj : j < n) (old : BitVec w) :
    (mergeLeft w (skippedCount s.params .left v n) (s.readCells (selectedCells s.params .left v pa n)) old).extractLsb'
        (8 * j) 8 =
      if skippedCount s.params .left v n ≤ j then s.byteAt (sideAddress s.params .left pa n j)
      else old.extractLsb' (8 * j) 8 := by
  have hpos : 0 < n := by omega
  rw [extractLsb'_mergeLeft (by omega)]
  split
  · next hlow => exact byteNo_readCells_selected s hpos (offset_le_of_translate hp hn ht) hlow (lt_of_left hpos hj)
  · rfl

theorem extractLsb'_loadedRight (hp : 3 ≤ s.params.psize) (hn : n = 4 ∨ n = 8)
    (ht : translate s.params kind v = .ok (pa, type)) (hw : 8 * n ≤ w) (hj : j < n) (old : BitVec w) :
    (mergeRight w (selectedCount s.params .right v n) (s.readCells (selectedCells s.params .right v pa n))
        old).extractLsb' (8 * j) 8 =
      if j < selectedCount s.params .right v n then s.byteAt (sideAddress s.params .right pa n j)
      else old.extractLsb' (8 * j) 8 := by
  have hvalue := readCells_lt s (selectedCells s.params .right v pa n)
  rw [length_selectedCells] at hvalue
  rw [extractLsb'_mergeRight (by omega) hvalue]
  split
  · next hlt =>
    exact byteNo_readCells_selected s (by omega) (offset_le_of_translate hp hn ht) (Nat.zero_le j)
      (by simpa [firstSelected] using hlt)
  · rfl

/-- A load of selected bytes that nothing stops. -/
theorem loadSide_eq {side : Side} (hacc : Accessible s .load v pa type (selectedCells s.params side v pa n))
    (next : Nat → State → Effect) :
    s.loadSide side v n next = next (s.readCells (selectedCells s.params side v pa n))
      (s.remember .load type (selectedCells s.params side v pa n)) := by
  rw [State.loadSide, translated_of_ok hacc.translated, perform_of_accessible hacc]
  rfl

end Loaded

/-- A load of selected bytes delivers what `f` makes of the value of the cells. -/
theorem exec_sideLoad {i : Instr} {s : State} {t : Traits} {side : Side} {base rt : Reg} {offset : BitVec 16}
    {n pa : Nat} {type : AccessType} (f : State → Nat → Word)
    (hexec : exec i s = s.issue t fun s => s.loadSide side (s.address base offset) n fun w s' => s'.deliver rt (f s w))
    (ht : PlainTraits t) (hadm : Admits s t)
    (hacc : Accessible s .load (s.x base + sext64 offset) pa type
      (selectedCells s.params side (s.x base + sext64 offset) pa n)) :
    ∃ t', exec i s = .next t' ∧
      WritesGpr s t' rt (f s (s.readCells (selectedCells s.params side (s.x base + sext64 offset) pa n))) .none ∧
      Records s t' type false (selectedCells s.params side (s.x base + sext64 offset) pa n) := by
  rw [hexec]
  exact issue_of_loaded ht hadm (loadSide_eq hacc _)

/-! ## Doubleword loads -/

/-- What LDL makes of the value of the selected bytes. -/
def ldlResult (base rt : Reg) (offset : BitVec 16) (s : State) (w : Nat) : Word :=
  mergeLeft 64 (skippedCount s.params .left (s.address base offset) 8) w (s.x rt)

/-- What LDR makes of the value of the selected bytes. -/
def ldrResult (base rt : Reg) (offset : BitVec 16) (s : State) (w : Nat) : Word :=
  mergeRight 64 (selectedCount s.params .right (s.address base offset) 8) w (s.x rt)

theorem exec_ldl (base rt : Reg) (offset : BitVec 16) (s : State) :
    exec (.ldl base rt offset) s = s.issue { level := .III, memory := true } fun s =>
      s.loadSide .left (s.address base offset) 8 fun w s' => s'.deliver rt (ldlResult base rt offset s w) := rfl

theorem exec_ldr (base rt : Reg) (offset : BitVec 16) (s : State) :
    exec (.ldr base rt offset) s = s.issue { level := .III, memory := true } fun s =>
      s.loadSide .right (s.address base offset) 8 fun w s' => s'.deliver rt (ldrResult base rt offset s w) := rfl

/-- Settles O44: the bytes that LDL and LDR merge are those of the left and of the right side. -/
theorem unalignedDoubleLoads : Obligations.UnalignedDoubleLoads := by
  intro s base rt offset pa k type hlevel hk hp
  subst hk
  have hadm := admits_accessIII hlevel
  refine ⟨fun hacc => ?ldl, fun hacc => ?ldr⟩
  case ldl =>
    obtain ⟨t, hnext, hwrites, hrecords⟩ := exec_sideLoad (ldlResult base rt offset) (exec_ldl ..) {} hadm hacc
    refine ⟨t, _, hnext, hwrites, hrecords, fun j hj => ?_⟩
    rw [ldlResult, State.address, extractLsb'_loadedLeft hp (.inr rfl) hacc.translated (Nat.le_refl _) hj,
      skippedCount_left (by decide), sideAddress]
    split <;> rfl
  case ldr =>
    obtain ⟨t, hnext, hwrites, hrecords⟩ := exec_sideLoad (ldrResult base rt offset) (exec_ldr ..) {} hadm hacc
    refine ⟨t, _, hnext, hwrites, hrecords, fun j hj => ?_⟩
    rw [ldrResult, State.address, extractLsb'_loadedRight hp (.inr rfl) hacc.translated (Nat.le_refl _) hj]
    simp only [lt_selectedCount_right (show 0 < 8 by decide), sideAddress]
    split <;> rfl

/-! ## Word loads -/

theorem extractLsb'_low32 (x : Word) {j : Nat} (hj : j < 4) :
    (low32 x).extractLsb' (8 * j) 8 = x.extractLsb' (8 * j) 8 :=
  BitVec.extractLsb'_setWidth_of_le (by omega)

/-- The upper half of a sign-extended word is all sign. -/
theorem sext64_eq_append (w : Word32) : sext64 w = (if w.msb then BitVec.allOnes 32 else 0#32) ++ w :=
  BitVec.signExtend_eq_append_of_le (w := 32) (v := 64) (by decide)

@[simp] theorem low32_sext64 (w : Word32) : low32 (sext64 w) = w := by
  rw [sext64_eq_append, low32, BitVec.setWidth_append_eq_right]

@[simp] theorem low32_afterLwr (allLoaded unchanged : Bool) (old : Word) (low : Word32) :
    low32 (afterLwr allLoaded unchanged old low) = low := by
  unfold afterLwr
  split
  · exact low32_sext64 low
  · exact low32_setLowWord old low

/-- A register holds a sign-extended word after LWR, or bit 31 was not loaded and the upper half is unchanged. -/
theorem afterLwr_cases (allLoaded unchanged : Bool) (old : Word) (low : Word32) :
    afterLwr allLoaded unchanged old low = sext64 low ∨
      allLoaded = false ∧ (afterLwr allLoaded unchanged old low).extractLsb' 32 32 = old.extractLsb' 32 32 := by
  unfold afterLwr
  split
  · exact .inl rfl
  · next hpart =>
    exact .inr ⟨Bool.eq_false_of_not_eq_true fun hall => hpart (by simp [hall]), BitVec.extractLsb'_append_eq_left⟩

/-- The traits of LWL and LWR. -/
def wordSideTraits (s : State) (side : Side) (base rt : Reg) (offset : BitVec 16) : Traits where
  memory := true
  reads := [base]
  merges := s.mergeSource side (s.address base offset) 4 rt
  loads := some rt
  mergeLoad := true

theorem hasTraits_lwl (s : State) (base rt : Reg) (offset : BitVec 16) :
    HasTraits s (.lwl base rt offset) (wordSideTraits s .left base rt offset) where
  merges := mergeSource_left ..
  loads := loadDelay_of_loads rfl

theorem hasTraits_lwr (s : State) (base rt : Reg) (offset : BitVec 16) :
    HasTraits s (.lwr base rt offset) (wordSideTraits s .right base rt offset) where
  merges := mergeSource_right ..
  loads := loadDelay_of_loads rfl

/-- The word that LWL makes of the value of the selected bytes. -/
def lwlWord (base rt : Reg) (offset : BitVec 16) (s : State) (w : Nat) : Word32 :=
  mergeLeft 32 (skippedCount s.params .left (s.address base offset) 4) w (low32 (s.x rt))

/-- The word that LWR makes of the value of the selected bytes. -/
def lwrWord (base rt : Reg) (offset : BitVec 16) (s : State) (w : Nat) : Word32 :=
  mergeRight 32 (selectedCount s.params .right (s.address base offset) 4) w (low32 (s.x rt))

/-- The register after LWL. -/
def lwlResult (base rt : Reg) (offset : BitVec 16) (s : State) (w : Nat) : Word := sext64 (lwlWord base rt offset s w)

/-- The register after LWR. -/
def lwrResult (base rt : Reg) (offset : BitVec 16) (s : State) (w : Nat) : Word :=
  afterLwr (skippedCount s.params .right (s.address base offset) 4 == 0) (s.freeBit 0) (s.x rt)
    (lwrWord base rt offset s w)

theorem exec_lwl (base rt : Reg) (offset : BitVec 16) (s : State) :
    exec (.lwl base rt offset) s = s.issue (wordSideTraits s .left base rt offset) fun s =>
      s.loadSide .left (s.address base offset) 4 fun w s' => s'.deliver rt (lwlResult base rt offset s w) := rfl

theorem exec_lwr (base rt : Reg) (offset : BitVec 16) (s : State) :
    exec (.lwr base rt offset) s = s.issue (wordSideTraits s .right base rt offset) fun s =>
      s.loadSide .right (s.address base offset) 4 fun w s' => s'.deliver rt (lwrResult base rt offset s w) := rfl

section WordBytes
variable {s : State} {kind : AccessKind} {base : Reg} {offset : BitVec 16} {pa j : Nat} {type : AccessType}
  (hp : 3 ≤ s.params.psize) (ht : translate s.params kind (s.x base + sext64 offset) = .ok (pa, type)) (hj : j < 4)
include hp ht hj

theorem extractLsb'_lwlWord (rt : Reg) :
    (lwlWord base rt offset s (s.readCells (selectedCells s.params .left (s.x base + sext64 offset) pa 4))).extractLsb'
        (8 * j) 8 =
      if skippedCount s.params .left (s.x base + sext64 offset) 4 ≤ j then s.byteAt (sideAddress s.params .left pa 4 j)
      else (s.x rt).extractLsb' (8 * j) 8 := by
  rw [← extractLsb'_low32 _ hj]
  exact extractLsb'_loadedLeft hp (.inl rfl) ht (Nat.le_refl _) hj _

theorem extractLsb'_lwrWord (rt : Reg) :
    (lwrWord base rt offset s (s.readCells (selectedCells s.params .right (s.x base + sext64 offset) pa 4))).extractLsb'
        (8 * j) 8 =
      if j < selectedCount s.params .right (s.x base + sext64 offset) 4 then
        s.byteAt (sideAddress s.params .right pa 4 j)
      else (s.x rt).extractLsb' (8 * j) 8 := by
  rw [← extractLsb'_low32 _ hj]
  exact extractLsb'_loadedRight hp (.inl rfl) ht (Nat.le_refl _) hj _

end WordBytes

/-- LWR loads all four bytes at the last byte of a big-endian word and at the first of a little-endian one. -/
theorem skippedCount_right_eq_zero (p : Params) (v : Word) :
    skippedCount p .right v 4 = 0 ↔ v.toNat % 4 = if bigEndianCPU p then 3 else 0 := by
  rw [skippedCount, selectedCount_right]
  split <;> omega

/-- Settles O43: LWL and LWR merge the bytes of the left and of the right side into the low word. -/
theorem unalignedWordLoads : Obligations.UnalignedWordLoads := by
  intro s base rt offset pa k type hk hp
  subst hk
  refine ⟨fun hfollows hacc => ?lwl, fun hfollows hacc => ?lwr⟩
  case lwl =>
    have hadm : Admits s (wordSideTraits s .left base rt offset) :=
      PlainTraits.admits {} (supports_I s) (loadHazard_of_mayFollow (hasTraits_lwl ..) hfollows)
    obtain ⟨t, hnext, hwrites, hrecords⟩ := exec_sideLoad (lwlResult base rt offset) (exec_lwl ..) {} hadm hacc
    refine ⟨t, _, hnext, hwrites, hrecords, fun j hj => ?_⟩
    rw [extractLsb'_lwlWord hp hacc.translated hj, skippedCount_left (by decide), sideAddress]
    split <;> rfl
  case lwr =>
    have hadm : Admits s (wordSideTraits s .right base rt offset) :=
      PlainTraits.admits {} (supports_I s) (loadHazard_of_mayFollow (hasTraits_lwr ..) hfollows)
    obtain ⟨t, hnext, hwrites, hrecords⟩ := exec_sideLoad (lwrResult base rt offset) (exec_lwr ..) {} hadm hacc
    refine ⟨t, _, hnext, hwrites, hrecords, ?extension, fun j hj => ?bytes⟩
    case extension =>
      rw [lwrResult, low32_afterLwr]
      refine (afterLwr_cases ..).imp_right fun ⟨hpart, hupper⟩ => ⟨fun hall => ?_, hupper⟩
      exact beq_eq_false_iff_ne.1 hpart ((skippedCount_right_eq_zero ..).2 hall)
    case bytes =>
      rw [← extractLsb'_low32 _ hj, lwrResult, low32_afterLwr, extractLsb'_lwrWord hp hacc.translated hj]
      simp only [lt_selectedCount_right (show 0 < 4 by decide), sideAddress]
      split <;> rfl

/-! ## LWL and then LWR (40_load_store.md R190) -/

/-- A load of selected bytes that has completed has made its access: the register has what `f` makes of the value of the
cells, and the other registers, memory and the launch parameters are as before. -/
theorem sideLoad_completed {i : Instr} {s t : State} {traits : Traits} {side : Side} {base rt : Reg} {offset : BitVec 16}
    {n pa : Nat} {type : AccessType} (f : State → Nat → Word)
    (hexec : exec i s =
      s.issue traits fun s => s.loadSide side (s.address base offset) n fun w s' => s'.deliver rt (f s w))
    (hnext : exec i s = .next t) (htrap : t.trap = none) (hrt : rt ≠ 0#5)
    (ht : translate s.params .load (s.x base + sext64 offset) = .ok (pa, type)) :
    t.x rt = f s (s.readCells (selectedCells s.params side (s.x base + sext64 offset) pa n)) ∧
      (∀ r, rt ≠ r → t.x r = s.x r) ∧ t.mem = s.mem ∧ t.params = s.params := by
  rw [hexec] at hnext
  rcases issue_next hnext with ⟨e, rfl⟩ | ⟨s₁, d, hdone, rfl⟩
  · cases htrap
  · obtain ⟨pa', type', ht', hdone⟩ := loadSide_done hdone
    cases ht.symm.trans ht'
    cases hdone
    exact ⟨x_setX_same _ _ _ hrt, fun r hr => x_setX_other _ _ _ _ hr, rfl, rfl⟩

theorem byteAt_congr {s t : State} (hm : t.mem = s.mem) (hp : t.params = s.params) (pa : Nat) :
    t.byteAt pa = s.byteAt pa := by
  simp only [State.byteAt, hm, hp]

/-- The low `a` bytes of the word `m` merged into a sign-extended word whose other bytes are those of `m` already. -/
theorem afterLwr_sext64 {allLoaded : Bool} {a : Nat} {l m r : Word32}
    (hl : ∀ j < 4, a ≤ j → l.extractLsb' (8 * j) 8 = m.extractLsb' (8 * j) 8)
    (hr : ∀ j < 4, r.extractLsb' (8 * j) 8 =
      if j < a then m.extractLsb' (8 * j) 8 else (sext64 l).extractLsb' (8 * j) 8)
    (hall : allLoaded = false → a ≤ 3) (unchanged : Bool) : afterLwr allLoaded unchanged (sext64 l) r = sext64 m := by
  have hrm : r = m := word_ext fun j hj => by
    rw [hr j hj]
    split
    · rfl
    · next hlt => rw [← extractLsb'_low32 _ hj, low32_sext64, hl j hj (Nat.le_of_not_lt hlt)]
  subst hrm
  unfold afterLwr
  split
  · rfl
  · next hpart =>
    have hsign : l.msb = r.msb := by
      have hbyte := hl 3 (by decide) (hall (Bool.eq_false_of_not_eq_true fun h => hpart (by simp [h])))
      have hbit := congrArg (BitVec.getLsbD · 7) hbyte
      rw [BitVec.getLsbD_extractLsb', BitVec.getLsbD_extractLsb'] at hbit
      rw [BitVec.msb_eq_getLsbD_last, BitVec.msb_eq_getLsbD_last]
      exact hbit
    rw [sext64_eq_append l, BitVec.extractLsb'_append_eq_left, hsign, ← sext64_eq_append]

/-- LWL of the upper bytes of a word and LWR of the others load the word: between them they select each of its bytes. -/
theorem lwr_after_lwl {s t u : State} {base rt : Reg} {left right : BitVec 16} {pa paLeft paRight : Nat}
    {type type' : AccessType} (hbase : base ≠ rt) (hrt : rt ≠ 0#5) (hp : 3 ≤ s.params.psize)
    (htl : translate s.params .load (s.x base + sext64 left) = .ok (paLeft, type))
    (htr : translate s.params .load (s.x base + sext64 right) = .ok (paRight, type'))
    (hlwl : exec (.lwl base rt left) s = .next t) (htrapt : t.trap = none)
    (hlwr : exec (.lwr base rt right) t = .next u) (htrapu : u.trap = none)
    (hleft : ∀ j < 4, selectedCount s.params .right (s.x base + sext64 right) 4 ≤ j →
      skippedCount s.params .left (s.x base + sext64 left) 4 ≤ j ∧
        sideAddress s.params .left paLeft 4 j = if bigEndianCPU s.params then pa + (3 - j) else pa + j)
    (hright : ∀ j < 4, j < selectedCount s.params .right (s.x base + sext64 right) 4 →
      sideAddress s.params .right paRight 4 j = if bigEndianCPU s.params then pa + (3 - j) else pa + j) :
    u.x rt = sext64 (s.wordAt pa) := by
  obtain ⟨hxt, hkeeps, hmem, hparams⟩ :=
    sideLoad_completed (lwlResult base rt left) (exec_lwl ..) hlwl htrapt hrt htl
  have haddr : t.x base + sext64 right = s.x base + sext64 right := by rw [hkeeps base hbase.symm]
  rw [← hparams, ← haddr] at htr
  obtain ⟨hxu, -⟩ := sideLoad_completed (lwrResult base rt right) (exec_lwr ..) hlwr htrapu hrt htr
  rw [hxu, lwrResult, hxt, lwlResult]
  refine afterLwr_sext64 (a := selectedCount s.params .right (s.x base + sext64 right) 4) (fun j hj hle => ?left)
    (fun j hj => ?right) (fun hpart => ?all) _
  case left =>
    obtain ⟨hskip, haddress⟩ := hleft j hj hle
    rw [extractLsb'_lwlWord hp htl hj, if_pos hskip, haddress, extractLsb'_wordAt s pa hj]
  case right =>
    rw [extractLsb'_lwrWord (hparams ▸ hp) htr hj, hxt, lwlResult, byteAt_congr hmem hparams, haddr, hparams]
    split
    · next hlt => rw [hright j hj hlt, extractLsb'_wordAt s pa hj]
    · rfl
  case all =>
    have hskips : skippedCount t.params .right (t.x base + sext64 right) 4 ≠ 0 := beq_eq_false_iff_ne.1 hpart
    rw [haddr, hparams, skippedCount] at hskips
    omega

/-- Settles O46: in either byte order the two addresses are three bytes apart, and LWR loads what LWL has not. -/
theorem unalignedWordPair : Obligations.UnalignedWordPair := by
  intro s t u base rt offset pa type type' _ hbase hrt hp ht ht' htrapt htrapu hexec
  obtain ⟨-, hlow⟩ := translate_lt hp ht
  obtain ⟨-, hlow'⟩ := translate_lt hp ht'
  have hoffset : (s.x base + sext64 offset).toNat % 4 = pa % 4 := by omega
  have hoffset' : (s.x base + sext64 (offset + 3#16)).toNat % 4 = (pa + 3) % 4 := by omega
  cases hend : bigEndianCPU s.params with
  | true =>
    simp only [hend, if_true] at hexec
    obtain ⟨hlwl, hlwr⟩ := hexec
    have hword := lwr_after_lwl (pa := pa) hbase hrt hp ht ht' hlwl htrapt hlwr htrapu
    simp only [skippedCount_left (show 0 < 4 by decide), selectedCount_right, sideAddress, hend, if_true, hoffset,
      hoffset'] at hword
    rw [hword (fun j hj hle => ⟨by omega, trivial⟩) (fun j hj hlt => by omega), State.wordAt, hend]
  | false =>
    simp only [hend] at hexec
    obtain ⟨hlwl, hlwr⟩ := hexec
    have hword := lwr_after_lwl (pa := pa) hbase hrt hp ht' ht hlwl htrapt hlwr htrapu
    simp only [skippedCount_left (show 0 < 4 by decide), selectedCount_right, sideAddress, hend, Bool.false_eq_true,
      if_false, hoffset, hoffset'] at hword
    rw [hword (fun j hj hle => ⟨by omega, by omega⟩) (fun _ _ _ => trivial), State.wordAt, hend]

end Sys2Proof.Machine
end

section
/-! SUPPORT. The unaligned stores (40_load_store.md R184, R185, R188, R189), byte by byte. -/

namespace Sys2Proof.Machine

/-! ## Left and right stores, byte by byte (40_load_store.md R184, R185, R188, R189) -/

/-- A store of selected bytes that nothing stops. -/
theorem storeSide_eq {s : State} {side : Side} {v : Word} {n pa : Nat} {type : AccessType}
    (hacc : Accessible s .store v pa type (selectedCells s.params side v pa n)) (value : Nat) :
    s.storeSide side v n value =
      ((s.remember .store type (selectedCells s.params side v pa n)).writeCells (selectedCells s.params side v pa n)
        (storedPart s.params side v n (value % 2 ^ (8 * n)))).complete := by
  rw [State.storeSide, translated_of_ok hacc.translated, perform_of_accessible hacc]

/-- Each selected byte of a register value stands at its address once it is stored. -/
theorem byteAt_of_stored {s t : State} {kind : AccessKind} {side : Side} {v : Word} {n pa j : Nat} {type : AccessType}
    {value : Nat} (hwf : Memory.wf s.mem = true) (hp : 3 ≤ s.params.psize) (hn : n = 4 ∨ n = 8)
    (ht : translate s.params kind v = .ok (pa, type)) (hparams : t.params = s.params)
    (hmem : t.mem = (s.writeCells (selectedCells s.params side v pa n)
      (storedPart s.params side v n (value % 2 ^ (8 * n)))).mem)
    (hlow : firstSelected s.params side v n ≤ j)
    (hhigh : j < firstSelected s.params side v n + selectedCount s.params side v n) :
    t.byteAt (sideAddress s.params side pa n j) = byteNo value j := by
  have hpos : 0 < n := by omega
  have hjn : j < n := Nat.lt_of_lt_of_le hhigh (firstSelected_add_le hpos)
  have hread : t.readCells (selectedCells s.params side v pa n) =
      storedPart s.params side v n (value % 2 ^ (8 * n)) % 2 ^ (8 * selectedCount s.params side v n) := by
    have hpow : 2 ^ (8 * selectedCount s.params side v n) = 256 ^ (selectedCells s.params side v pa n).length := by
      rw [length_selectedCells, Nat.pow_mul]
    rw [hpow, ← readCells_writeCells hwf (nodup_selectedCells s.params side v pa n)]
    simp only [State.readCells, hmem, hparams, writeCells_params]
  calc t.byteAt (sideAddress s.params side pa n j)
      = byteNo (t.readCells (selectedCells s.params side v pa n)) (j - firstSelected s.params side v n) := by
        rw [← hparams] at hlow hhigh ⊢
        exact (byteNo_readCells_selected t hpos (offset_le_of_translate hp hn ht) hlow hhigh).symm
    _ = byteNo (storedPart s.params side v n (value % 2 ^ (8 * n))) (j - firstSelected s.params side v n) := by
        rw [hread, byteNo_mod (by omega)]
    _ = byteNo value j := by rw [byteNo_storedPart _ hlow hhigh, byteNo_mod hjn]

/-- Instruction `i` is issued as a store of the selected bytes of the object of `n` bytes at its address, and nothing
before the rule stops it. -/
def IssuedAsSideStore (s : State) (i : Instr) (side : Side) (base rt : Reg) (offset : BitVec 16) (n : Nat) : Prop :=
  ∃ t, (exec i s = s.issue t fun s => s.storeSide side (s.address base offset) n (s.x rt).toNat) ∧
    PlainTraits t ∧ Admits s t

/-- A store of selected bytes puts each of them at its address, and writes nothing else. -/
theorem exec_sideStore {i : Instr} {s : State} {side : Side} {base rt : Reg} {offset : BitVec 16}
    {n pa : Nat} {type : AccessType}
    (hissue : IssuedAsSideStore s i side base rt offset n) (hwf : Memory.wf s.mem = true) (hp : 3 ≤ s.params.psize)
    (hn : n = 4 ∨ n = 8)
    (hacc : Accessible s .store (s.x base + sext64 offset) pa type
      (selectedCells s.params side (s.x base + sext64 offset) pa n)) :
    ∃ t', exec i s = .next t' ∧
      WritesMemory s t' type (selectedCells s.params side (s.x base + sext64 offset) pa n) ∧
      ∀ j, firstSelected s.params side (s.x base + sext64 offset) n ≤ j →
        j < firstSelected s.params side (s.x base + sext64 offset) n +
          selectedCount s.params side (s.x base + sext64 offset) n →
        t'.byteAt (sideAddress s.params side pa n j) = (s.x rt).extractLsb' (8 * j) 8 := by
  obtain ⟨t, hexec, ht, hadm⟩ := hissue
  rw [hexec]
  obtain ⟨t', hnext, hwrites, hmem⟩ := issue_of_stored ht hadm hwf
    (rule := fun s => s.storeSide side (s.address base offset) n (s.x rt).toNat) (storeSide_eq hacc _)
  refine ⟨t', hnext, hwrites, fun j hlow hhigh => ?_⟩
  rw [extractLsb'_eq_byteNo]
  exact byteAt_of_stored hwf hp hn hacc.translated hwrites.advances.params hmem hlow hhigh

/-- Settles O45: each form stores the bytes of its side. -/
theorem unalignedStores : Obligations.UnalignedStores := by
  intro s base rt offset pa n k type hsettled hwf hp hk
  subst hk
  refine ⟨fun i hi hlevel hacc => ?left, fun i hi hlevel hacc => ?right⟩
  all_goals have hn : n = 4 ∨ n = 8 := hi.imp And.right And.right
  all_goals have hpos : 0 < n := by omega
  case left =>
    have hissue : IssuedAsSideStore s i .left base rt offset n := by
      rcases hi with ⟨rfl, rfl⟩ | ⟨rfl, rfl⟩
      · exact ⟨_, rfl, {}, admits_storeI hsettled⟩
      · exact ⟨_, rfl, {}, admits_accessIII hlevel⟩
    obtain ⟨t, hnext, hwrites, hbytes⟩ := exec_sideStore hissue hwf hp hn hacc
    refine ⟨t, hnext, hwrites, fun j hj => ?_⟩
    have hbyte := fun hlow => hbytes j hlow (lt_of_left hpos hj)
    simp only [firstSelected, skippedCount_left hpos, sideAddress] at hbyte
    cases hend : bigEndianCPU s.params <;> simpa [hend] using hbyte
  case right =>
    have hissue : IssuedAsSideStore s i .right base rt offset n := by
      rcases hi with ⟨rfl, rfl⟩ | ⟨rfl, rfl⟩
      · exact ⟨_, rfl, {}, admits_storeI hsettled⟩
      · exact ⟨_, rfl, {}, admits_accessIII hlevel⟩
    obtain ⟨t, hnext, hwrites, hbytes⟩ := exec_sideStore hissue hwf hp hn hacc
    refine ⟨t, hnext, hwrites, fun j hj => ?_⟩
    have hbyte := hbytes j (Nat.zero_le j)
    simp only [firstSelected, Nat.zero_add, lt_selectedCount_right hpos, sideAddress] at hbyte
    cases hend : bigEndianCPU s.params <;> simpa [hend] using hbyte

end Sys2Proof.Machine
end

section
/-! SUPPORT. The linked loads and the conditional stores (41_atomic_coproc_load_store.md section 1): an access that has
passed the checks before its rule, what each rule answers, and what is left when it completes. -/

namespace Sys2Proof.Machine

/-! ## An access that has passed the checks before its rule (60_exceptions.md R455) -/

/-- Traits that ask for no check; `memory` says whether the access may disturb the sequence of a linked load. -/
def passedTraits (memory : Bool) : Traits where
  memory := memory

theorem admits_passed (s : State) (memory : Bool) : Admits s (passedTraits memory) :=
  PlainTraits.admits {} (supports_I s) (loadHazard_of_settled (settled_nil s) (List.nil_subset _) rfl)

/-- An admitted instruction that reads neither `HI` nor `LO` and loads no general register of MIPS I does what its rule
answers, as an access that has passed the checks. -/
theorem exec_eq_passed {s : State} {i : Instr} {t : Traits} {rule : State → Effect} {answer : Effect}
    (hexec : exec i s = s.issue t rule) (hadm : Admits s t) (hrule : rule s = answer)
    (hhi : t.readsHi = false := by rfl) (hlo : t.readsLo = false := by rfl)
    (hloads : t.loads = none := by rfl) :
    exec i s = s.issue (passedTraits t.memory) fun _ => answer := by
  have hretire : ∀ s' d, s.retire t s' d = s.retire (passedTraits t.memory) s' d := fun s' d => by
    simp [State.retire, Traits.loadDelay, passedTraits, hhi, hlo, hloads]
  rw [hexec, issue_of_admits hadm, issue_of_admits (admits_passed s t.memory), hrule]
  cases answer with
  | done s' d => exact congrArg Host.Outcome.next (hretire s' d)
  | raise e => rfl
  | refuse r => rfl

/-- MIPS II and III have no load delay slot to check. -/
theorem admits_noReads {s : State} {level : Level} (hlevel : s.supports level = true) (memory : Bool) :
    Admits s { level := level, memory := memory } :=
  PlainTraits.admits {} hlevel (loadHazard_of_settled (settled_nil s) (List.nil_subset _) rfl)

section Exec
variable {s : State} {base rt : Reg} {offset : BitVec 16} {i : Instr} {size : LinkSize}

theorem exec_ll (hlevel : s.supports .II = true) :
    exec (.ll base rt offset) s = s.issue (passedTraits false) fun _ =>
      s.linkedLoad (s.x base + sext64 offset) .word rt fun v => sext64 (BitVec.ofNat 32 v) :=
  exec_eq_passed (by rfl) (admits_noReads hlevel false) (by rfl)

theorem exec_lld (hlevel : s.supports .III = true) :
    exec (.lld base rt offset) s = s.issue (passedTraits false) fun _ =>
      s.linkedLoad (s.x base + sext64 offset) .double rt fun v => BitVec.ofNat 64 v :=
  exec_eq_passed (by rfl) (admits_noReads hlevel false) (by rfl)

/-- SC and SCD are the conditional store of their size. -/
theorem exec_conditional (hi : (i = .sc base rt offset ∧ size = .word) ∨ (i = .scd base rt offset ∧ size = .double))
    (hlevel : s.supports i.level = true) :
    exec i s = s.issue (passedTraits true) fun _ => s.conditionalStore (s.x base + sext64 offset) size rt := by
  rcases hi with ⟨rfl, rfl⟩ | ⟨rfl, rfl⟩
  · exact exec_eq_passed (by rfl) (admits_noReads hlevel true) (by rfl)
  · exact exec_eq_passed (by rfl) (admits_noReads hlevel true) (by rfl)

end Exec

/-! ## What the rules answer (41_atomic_coproc_load_store.md R200 to R205) -/

section Rule
variable {s : State} {v : Word} {size : LinkSize} {rt : Reg} {pa : Nat} {type : AccessType} {l : Link}

/-- An aligned access whose address translates goes on at the physical address. -/
theorem aligned_translated {kind : AccessKind} {n : Nat} (hal : v.toNat % n = 0)
    (ht : translate s.params kind v = .ok (pa, type)) (next : Nat → AccessType → Effect) :
    aligned kind v n (s.translated kind v next) = next pa type := by
  rw [aligned, if_pos hal, translated_of_ok ht]

theorem linkedLoad_of_uncached (hal : v.toNat % size.bytes = 0)
    (ht : translate s.params .load v = .ok (pa, .uncached)) (result : Nat → Word) :
    s.linkedLoad v size rt result = .refuse .linkedAccessUncached :=
  (aligned_translated hal ht _).trans (if_pos rfl)

theorem linkedLoad_of_accessible (hal : v.toNat % size.bytes = 0) (hcached : type ≠ .uncached)
    (hacc : Accessible s .load v pa type (dataCells s.params pa size.bytes)) (result : Nat → Word) :
    s.linkedLoad v size rt result =
      State.complete
        { (s.remember .load type (dataCells s.params pa size.bytes)).setX rt
            (result (s.readCells (dataCells s.params pa size.bytes))) with
          llbit := true, link := some ⟨v, size, pa, false, s.pc, s.pc⟩ } := by
  rw [State.linkedLoad, aligned_translated hal hacc.translated, if_neg hcached, perform_of_accessible hacc]
  rfl

theorem conditionalStore_of_uncached (hal : v.toNat % size.bytes = 0)
    (ht : translate s.params .store v = .ok (pa, .uncached)) :
    s.conditionalStore v size rt = .refuse .linkedAccessUncached :=
  (aligned_translated hal ht _).trans (if_pos rfl)

/-- R203 (a) to (c): no linked load, or one of another address or size. -/
theorem conditionalStore_of_unlinked (hal : v.toNat % size.bytes = 0) (hcached : type ≠ .uncached)
    (ht : translate s.params .store v = .ok (pa, type)) (hlink : ∀ l, s.link = some l → l.vaddr ≠ v ∨ l.size ≠ size) :
    s.conditionalStore v size rt = .refuse .conditionalStoreWithoutLink := by
  rw [State.conditionalStore, aligned_translated hal ht, if_neg hcached]
  cases h : s.link with
  | none => rfl
  | some l => exact if_pos (hlink l h)

/-- A conditional store after its linked load stores if it succeeds, and in any case ends the sequence. -/
theorem conditionalStore_of_linked (hal : v.toNat % size.bytes = 0) (hcached : type ≠ .uncached)
    (ht : translate s.params .store v = .ok (pa, type)) (hlink : s.link = some l) (hvaddr : l.vaddr = v)
    (hsize : l.size = size) :
    s.conditionalStore v size rt =
      if s.conditionalSucceeds l then
        s.perform .store pa type (dataCells s.params pa size.bytes) fun s' =>
          (s'.writeCells (dataCells s.params pa size.bytes) (s.x rt).toNat).endSequence rt true
      else s.endSequence rt false := by
  have hmatches : ¬ (l.vaddr ≠ v ∨ l.size ≠ size) := by simp [hvaddr, hsize]
  rw [State.conditionalStore, aligned_translated hal ht, if_neg hcached, hlink]
  exact if_neg hmatches

theorem conditionalStore_of_guaranteed (hal : v.toNat % size.bytes = 0) (hcached : type ≠ .uncached)
    (hsure : Guaranteed s v size l) (hacc : Accessible s .store v pa type (dataCells s.params pa size.bytes)) :
    s.conditionalStore v size rt =
      ((s.remember .store type (dataCells s.params pa size.bytes)).writeCells (dataCells s.params pa size.bytes)
        (s.x rt).toNat).endSequence rt true := by
  rw [conditionalStore_of_linked hal hcached hacc.translated hsure.link hsure.vaddr hsure.size, if_pos hsure.succeeds,
    perform_of_accessible hacc]

/-- With `LLbit` clear no conditional store succeeds. -/
theorem conditionalSucceeds_of_clear (h : s.llbit = false) (l : Link) : s.conditionalSucceeds l = false := by
  rw [State.conditionalSucceeds, h, Bool.false_and]

theorem conditionalStore_of_clear (hal : v.toNat % size.bytes = 0) (hcached : type ≠ .uncached)
    (ht : translate s.params .store v = .ok (pa, type)) (hlink : s.link = some l) (hvaddr : l.vaddr = v)
    (hsize : l.size = size) (hclear : s.llbit = false) : s.conditionalStore v size rt = s.endSequence rt false := by
  rw [conditionalStore_of_linked hal hcached ht hlink hvaddr hsize, conditionalSucceeds_of_clear hclear]
  rfl

end Rule

/-! ## What a linked load or a conditional store leaves -/

/-- Completed, writing one general register, `LLbit` and `LLaddr`, and at most memory and the record of accesses
beside. -/
structure WritesGprAndLink (s t : State) (rt : Reg) (v : Word) (llbit : Bool) (link : Option Link) : Prop where
  result : t.x rt = if rt = 0#5 then 0#64 else v
  llbit : t.llbit = llbit
  link : t.link = link
  gprs : KeepsGprs s t [rt]
  hilo : KeepsHiLo s t
  guards : CountsDown s t
  cops : KeepsCops s t
  advances : Advances s t .none

theorem writesGprAndLink_retire (s : State) (mem : List Host.Cell) (history : List (Nat × Note)) (rt : Reg) (v : Word)
    (llbit : Bool) (link : Option Link) (memory : Bool) :
    WritesGprAndLink s
      (s.retire (passedTraits memory)
        { State.setX { s with mem := mem, history := history } rt v with llbit := llbit, link := link } .none)
      rt v llbit (link.map fun l => l.extend s.pc memory) where
  result := by
    by_cases hrt : rt = 0#5
    · simp [hrt]
    · rw [if_neg hrt]; exact x_setX_same _ _ _ hrt
  llbit := rfl
  link := rfl
  gprs r hr := x_setX_other _ _ _ _ fun h => hr (by simp [h])
  hilo := ⟨rfl, rfl, rfl⟩
  guards := ⟨rfl, rfl⟩
  cops := ⟨rfl, rfl, rfl, rfl, rfl, rfl⟩
  advances := advances_retire rfl rfl rfl

/-- A sequence of the linked load alone begins and ends at it. -/
theorem extend_own (v : Word) (size : LinkSize) (pa : Nat) (pc : Word) :
    (Link.mk v size pa false pc pc).extend pc false = ⟨v, size, pa, false, pc, pc⟩ := by
  simp [Link.extend]

section Completed
variable {s : State} {i : Instr} {v : Word} {size : LinkSize} {rt : Reg} {pa : Nat} {type : AccessType} {l : Link}

/-- A linked load that nothing stops loads what `result` makes of the value of the cells, and links the location. -/
theorem exec_linkedLoad {result : Nat → Word}
    (hexec : exec i s = s.issue (passedTraits false) fun _ => s.linkedLoad v size rt result)
    (hal : v.toNat % size.bytes = 0) (hcached : type ≠ .uncached)
    (hacc : Accessible s .load v pa type (dataCells s.params pa size.bytes)) :
    ∃ t, exec i s = .next t ∧
      WritesGprAndLink s t rt (result (s.readCells (dataCells s.params pa size.bytes))) true
        (some ⟨v, size, pa, false, s.pc, s.pc⟩) ∧
      KeepsMemory s t [] ∧ Records s t type false (dataCells s.params pa size.bytes) := by
  rw [hexec, ← extend_own]
  exact ⟨_, issue_of_done (admits_passed s false) (linkedLoad_of_accessible hal hcached hacc result),
    writesGprAndLink_retire .., fun _ _ => rfl, records_remember s .load type _⟩

/-- A conditional store that is certain to store leaves the low bytes of the register in the cells and 1 in the
register. -/
theorem exec_conditionalStore_succeeds
    (hexec : exec i s = s.issue (passedTraits true) fun _ => s.conditionalStore v size rt)
    (hwf : Memory.wf s.mem = true) (hal : v.toNat % size.bytes = 0) (hcached : type ≠ .uncached)
    (hsure : Guaranteed s v size l) (hacc : Accessible s .store v pa type (dataCells s.params pa size.bytes)) :
    ∃ t, exec i s = .next t ∧ WritesGprAndLink s t rt 1#64 false none ∧
      BitVec.ofNat (8 * size.bytes) (t.readCells (dataCells t.params pa size.bytes)) =
        (s.x rt).setWidth (8 * size.bytes) ∧
      KeepsMemory s t (dataCells s.params pa size.bytes) ∧
      Records s t type true (dataCells s.params pa size.bytes) := by
  rw [hexec]
  exact ⟨_, issue_of_done (admits_passed s true) (conditionalStore_of_guaranteed hal hcached hsure hacc),
    writesGprAndLink_retire .., ofNat_readCells_writeCells hwf pa _ (s.x rt), keepsMemory_writeCells hwf _ _,
    records_remember s .store type _⟩

/-- A conditional store with `LLbit` clear leaves 0 in the register, and memory and the record of accesses alone. -/
theorem exec_conditionalStore_fails
    (hexec : exec i s = s.issue (passedTraits true) fun _ => s.conditionalStore v size rt)
    (hal : v.toNat % size.bytes = 0) (hcached : type ≠ .uncached) (ht : translate s.params .store v = .ok (pa, type))
    (hlink : s.link = some l) (hvaddr : l.vaddr = v) (hsize : l.size = size) (hclear : s.llbit = false) :
    ∃ t, exec i s = .next t ∧ WritesGprAndLink s t rt 0#64 false none ∧ KeepsMemory s t [] ∧
      t.history = s.history := by
  rw [hexec]
  exact ⟨_, issue_of_done (admits_passed s true)
      (conditionalStore_of_clear hal hcached ht hlink hvaddr hsize hclear),
    writesGprAndLink_retire .., fun _ _ => rfl, rfl⟩

end Completed

/-! ## The statements -/

/-- Settles O47: each is the linked load of its size, with the value of its cells as the word or the doubleword. -/
theorem linkedLoads : Obligations.LinkedLoads := by
  intro s base rt offset pa type hcached
  rw [← ofNat_readCells_four, ← ofNat_readCells_eight]
  refine ⟨fun hal hlevel hacc => ?ll, fun hal hlevel hacc => ?lld⟩
  case ll =>
    obtain ⟨t, hnext, hw, hmem, hrec⟩ := exec_linkedLoad (exec_ll hlevel) hal hcached hacc
    exact ⟨t, hnext, hw.result, hw.llbit, hw.link, hrec, hw.gprs, hw.hilo, hw.guards, hw.cops, hmem, hw.advances⟩
  case lld =>
    obtain ⟨t, hnext, hw, hmem, hrec⟩ := exec_linkedLoad (exec_lld hlevel) hal hcached hacc
    exact ⟨t, hnext, hw.result, hw.llbit, hw.link, hrec, hw.gprs, hw.hilo, hw.guards, hw.cops, hmem, hw.advances⟩

/-- Settles O48: the guarantee makes the conditional store of either size succeed. -/
theorem conditionalStoresSucceed : Obligations.ConditionalStoresSucceed := by
  intro s base rt offset pa type l hcached hwf hsure
  refine ⟨fun hsize hal hlevel hacc => ?sc, fun hsize hal hlevel hacc => ?scd⟩
  all_goals rw [hsize] at hsure
  case sc =>
    obtain ⟨t, hnext, hw, hdata, hmem, hrec⟩ :=
      exec_conditionalStore_succeeds (exec_conditional (.inl ⟨rfl, rfl⟩) hlevel) hwf hal hcached hsure hacc
    exact ⟨t, hnext, hw.result, (ofNat_readCells_four t pa).symm.trans hdata, hw.llbit, hw.link, hw.gprs, hw.hilo,
      hw.guards, hw.cops, hmem, hrec, hw.advances⟩
  case scd =>
    obtain ⟨t, hnext, hw, hdata, hmem, hrec⟩ :=
      exec_conditionalStore_succeeds (exec_conditional (.inr ⟨rfl, rfl⟩) hlevel) hwf hal hcached hsure hacc
    have hdouble : t.doubleAt pa = s.x rt :=
      ((ofNat_readCells_eight t pa).symm.trans hdata).trans (BitVec.setWidth_eq _)
    exact ⟨t, hnext, hw.result, hdouble, hw.llbit, hw.link, hw.gprs, hw.hilo, hw.guards, hw.cops, hmem, hrec,
      hw.advances⟩

/-- Settles O49: the linked load has the size of the conditional store, which ends the sequence without an access. -/
theorem conditionalStoresFail : Obligations.ConditionalStoresFail := by
  intro s base rt offset pa type l i hcached ht hlink hvaddr hclear hlevel hi
  have hform : ((i = .sc base rt offset ∧ l.size = .word) ∨ (i = .scd base rt offset ∧ l.size = .double)) ∧
      l.vaddr.toNat % l.size.bytes = 0 := by
    rcases hi with ⟨hi, hsize, hal⟩ | ⟨hi, hsize, hal⟩
    · exact ⟨.inl ⟨hi, hsize⟩, by rw [hsize]; exact hal⟩
    · exact ⟨.inr ⟨hi, hsize⟩, by rw [hsize]; exact hal⟩
  obtain ⟨hinstr, hal⟩ := hform
  rw [hvaddr] at hal
  obtain ⟨t, hnext, hw, hmem, hhistory⟩ := exec_conditionalStore_fails (exec_conditional hinstr hlevel) hal hcached ht
    hlink hvaddr rfl hclear
  exact ⟨t, hnext, hw.result.trans (ite_self _), hw.llbit, hw.link, hw.gprs, hw.hilo, hw.guards, hw.cops, hmem,
    hhistory, hw.advances⟩

/-- Settles O50: the access type is checked first, then whether the linked load is the one the store asks for. -/
theorem linkedAccessesRefused : Obligations.LinkedAccessesRefused := by
  intro s base rt offset v hv
  subst hv
  refine ⟨fun i size pa type hi hlevel hal ht => ?conditional, fun i n pa hi hlevel hal ht => ?linked⟩
  case conditional =>
    rw [exec_conditional hi hlevel]
    refine ⟨fun hcached hlink => ?unlinked, fun huncached => ?uncached⟩
    case unlinked =>
      exact issue_of_refuse (admits_passed s true) (conditionalStore_of_unlinked hal hcached ht hlink)
    case uncached =>
      exact issue_of_refuse (admits_passed s true) (conditionalStore_of_uncached hal (huncached ▸ ht))
  case linked =>
    rcases hi with ⟨rfl, rfl⟩ | ⟨rfl, rfl⟩
    · rw [exec_ll hlevel]
      exact issue_of_refuse (admits_passed s false) (linkedLoad_of_uncached hal ht _)
    · rw [exec_lld hlevel]
      exact issue_of_refuse (admits_passed s false) (linkedLoad_of_uncached hal ht _)

end Sys2Proof.Machine
end

section
/-! SUPPORT. The loads and stores of unit 1 (41_atomic_coproc_load_store.md sections 2 and 3): what each form does once
unit 1 is usable, what the registers of unit 1 hold after a load, and what they supply to a store. -/

namespace Sys2Proof.Machine

/-! ## The forms once unit 1 is usable (R213 to R216, R220 to R224) -/

/-- The traits of the loads and stores of unit 1. -/
def unitOneTraits (level : Level) (reads : List Reg) : Traits where
  level := level
  unit := some 1
  memory := true
  reads := reads

theorem admits_unitOne {s : State} {level : Level} {reads rs : List Reg} (hlevel : s.supports level = true)
    (husable : unitUsable s.params 1 = true) (hsettled : s.settled rs = true) (hreads : reads ⊆ rs) :
    Admits s (unitOneTraits level reads) where
  level := of_decide_eq_true hlevel
  slot h := by cases h
  usable z hz := by cases hz; exact husable
  loaded := loadHazard_of_settled hsettled hreads rfl

/-- The indexed forms are of MIPS IV, which has no load delay slot to check. -/
theorem admits_indexed {s : State} (hlevel : s.supports .IV = true) (husable : unitUsable s.params 1 = true) :
    Admits s (unitOneTraits .IV []) :=
  admits_unitOne hlevel husable (settled_nil s) (List.nil_subset _)

/-- An indexed access outside the region of its base is refused (R220). -/
theorem inRegion_of_outside {s : State} {base : Reg} {v : Word} (h : regionBits v ≠ regionBits (s.x base))
    (next : Effect) : s.inRegion base v next = .refuse .regionBits :=
  if_neg h

section Exec
variable {s : State} {base index ft : Reg} {offset : BitVec 16} {v : Word} {i : Instr}

/-- The indexed forms check the region of their address before anything else of the rule. -/
theorem exec_indexed
    (hi : i = .lwxc1 base index ft ∨ i = .ldxc1 base index ft ∨ i = .swxc1 base index ft ∨ i = .sdxc1 base index ft)
    (hlevel : s.supports .IV = true) (husable : unitUsable s.params 1 = true) :
    ∃ next, exec i s = s.issue (passedTraits true) fun _ => s.inRegion base (s.x base + s.x index) next := by
  have hadm := admits_indexed hlevel husable
  rcases hi with rfl | rfl | rfl | rfl <;> exact ⟨_, exec_eq_passed (by rfl) hadm (by rfl)⟩

/-- The instruction is the register + offset form, or the register + register form in the region of the base. -/
def UnitOneForm (s : State) (base index : Reg) (offset : BitVec 16) (direct indexed i : Instr) (v : Word) : Prop :=
  (i = direct ∧ v = s.x base + sext64 offset) ∨
    (i = indexed ∧ v = s.x base + s.x index ∧ v.extractLsb' 62 2 = (s.x base).extractLsb' 62 2)

variable (hsettled : s.settled [base] = true) (hlevel : s.supports i.level = true)
  (husable : unitUsable s.params 1 = true)
include hsettled hlevel husable

/-- Either form makes the same access at its address. -/
theorem exec_unitOneForm {direct indexed : Instr} {reads : List Reg} (access : State → Word → Effect)
    (hdirect : exec direct s =
      s.issue (unitOneTraits direct.level reads) fun s => access s (s.address base offset))
    (hindexed : exec indexed s =
      s.issue (unitOneTraits .IV []) fun s =>
        s.inRegion base (s.indexedAddress base index) (access s (s.indexedAddress base index)))
    (hIV : indexed.level = .IV) (hreads : reads ⊆ [base])
    (hi : UnitOneForm s base index offset direct indexed i v) :
    exec i s = s.issue (passedTraits true) fun _ => access s v := by
  rcases hi with ⟨rfl, rfl⟩ | ⟨rfl, rfl, hregion⟩
  · exact exec_eq_passed hdirect (admits_unitOne hlevel husable hsettled hreads) rfl
  · exact exec_eq_passed hindexed (admits_indexed (hIV ▸ hlevel) husable) (inRegion_eq hregion _)

theorem exec_fpuLoadWord (hi : UnitOneForm s base index offset (.lwc1 base ft offset) (.lwxc1 base index ft) i v) :
    exec i s = s.issue (passedTraits true) fun _ =>
      s.load v 4 fun w s' => (s'.copLoadWord1 ft (BitVec.ofNat 32 w)).complete :=
  exec_unitOneForm hsettled hlevel husable
    (fun s v => s.load v 4 fun w s' => (s'.copLoadWord1 ft (BitVec.ofNat 32 w)).complete) rfl rfl rfl
    (List.Subset.refl _) hi

theorem exec_fpuLoadDouble (hi : UnitOneForm s base index offset (.ldc1 base ft offset) (.ldxc1 base index ft) i v) :
    exec i s = s.issue (passedTraits true) fun _ =>
      s.load v 8 fun w s' => (s'.copLoadDouble1 ft (BitVec.ofNat 64 w)).complete :=
  exec_unitOneForm hsettled hlevel husable
    (fun s v => s.load v 8 fun w s' => (s'.copLoadDouble1 ft (BitVec.ofNat 64 w)).complete) rfl rfl rfl
    (List.nil_subset _) hi

theorem exec_fpuStoreWord (hi : UnitOneForm s base index offset (.swc1 base ft offset) (.swxc1 base index ft) i v) :
    exec i s = s.issue (passedTraits true) fun _ => s.store v 4 (s.copStoreWord1 ft).toNat State.complete :=
  exec_unitOneForm hsettled hlevel husable
    (fun s v => s.store v 4 (s.copStoreWord1 ft).toNat State.complete) rfl rfl rfl (List.Subset.refl _) hi

theorem exec_fpuStoreDouble (hi : UnitOneForm s base index offset (.sdc1 base ft offset) (.sdxc1 base index ft) i v) :
    exec i s = s.issue (passedTraits true) fun _ => s.store v 8 (s.copStoreDouble1 ft).toNat State.complete :=
  exec_unitOneForm hsettled hlevel husable
    (fun s v => s.store v 8 (s.copStoreDouble1 ft).toNat State.complete) rfl rfl rfl (List.nil_subset _) hi

end Exec

/-- Settles O54: the region is checked before the alignment. -/
theorem indexedRegionRefused : Obligations.IndexedRegionRefused := by
  intro s base index ft i hlevel husable hregion hi
  obtain ⟨next, hexec⟩ := exec_indexed hi hlevel husable
  exact hexec.trans (issue_of_refuse (admits_passed s true) (inRegion_of_outside hregion next))

/-! ## The registers of unit 1 that a load changes (R212, 10_state.md R49, R50) -/

/-- Nothing but the named registers of unit 1 is changed. -/
structure ChangesFgrs (s s' : State) (except : List Reg) : Prop where
  fgrs : ∀ i, i ∉ except → s'.fgr i = s.fgr i
  control : s'.cop1.ccr = s.cop1.ccr ∧ s'.cop1.coc = s.cop1.coc
  rest : s' = { s with cop1 := s'.cop1 }

theorem changesFgrs_setFgr (s : State) (i : Reg) (v : Word) : ChangesFgrs s (s.setFgr i v) [i] where
  fgrs j hj := by rw [fgr_setFgr, if_neg fun h => hj (by simp [h])]
  control := ⟨rfl, rfl⟩
  rest := rfl

theorem changesFgrs_setPair (s : State) (i : Reg) (hi lo : Word32) :
    ChangesFgrs s (s.setPair i hi lo) [evenOf i, oddOf i] where
  fgrs j hj := by
    rw [State.setPair, fgr_setFgr, fgr_setFgr, if_neg fun h => hj (by simp [h]), if_neg fun h => hj (by simp [h])]
  control := ⟨rfl, rfl⟩
  rest := rfl

theorem oddOf_of_even {i : Reg} (h : i[0] = false) : oddOf i = i + 1#5 := by revert i; decide

theorem pair_of_odd {i : Reg} (h : i[0] = true) : evenOf i = i - 1#5 ∧ oddOf i = i := by revert i; decide

/-- The number of a register is even just when its low bit is clear. -/
theorem toNat_mod_two (i : Reg) : i.toNat % 2 = if i[0] then 1 else 0 := by revert i; decide

/-- A word loaded is the low word of the register, whatever its upper half is. -/
theorem low32_fgr_copLoadWord1 (s : State) (ft : Reg) (w : Word32) : low32 ((s.copLoadWord1 ft w).fgr ft) = w := by
  rw [State.copLoadWord1, fgr_setFgr, if_pos rfl, low32_setLowWord]

section Double
variable {s : State} {ft : Reg}

theorem copLoadDouble1_of_wide (h : s.params.statusFR = true) (d : Word) : s.copLoadDouble1 ft d = s.setFgr ft d :=
  if_pos h

theorem copLoadDouble1_of_even (h : s.params.statusFR = false) (hft : ft[0] = false) (d : Word) :
    s.copLoadDouble1 ft d = s.setPair ft (d.extractLsb' 32 32) (low32 d) := by
  simp [State.copLoadDouble1, wideFGR, h, hft]

theorem copLoadDouble1_of_odd (h : s.params.statusFR = false) (hft : ft[0] = true) (d : Word) :
    s.copLoadDouble1 ft d = s.setPair ft (low32 (s.freeWord 1)) (low32 (s.freeWord 0)) := by
  simp [State.copLoadDouble1, wideFGR, h, hft]

/-- The pair of 32-bit registers holds the two words of the doubleword. -/
theorem fgr_setPair_even (hft : ft[0] = false) (d : Word) :
    low32 ((s.setPair ft (d.extractLsb' 32 32) (low32 d)).fgr (ft + 1#5)) ++
      low32 ((s.setPair ft (d.extractLsb' 32 32) (low32 d)).fgr ft) = d := by
  rw [← oddOf_of_even hft, fgr_setPair, fgr_setPair, if_neg (evenOf_ne_oddOf ft), if_pos rfl,
    if_pos (evenOf_of_even hft), append_halves]

theorem copStoreDouble1_of_wide (h : s.params.statusFR = true) : s.copStoreDouble1 ft = s.fgr ft :=
  if_pos h

theorem copStoreDouble1_of_even (h : s.params.statusFR = false) (hft : ft[0] = false) :
    s.copStoreDouble1 ft = low32 (s.fgr (ft + 1#5)) ++ low32 (s.fgr ft) := by
  simp [State.copStoreDouble1, wideFGR, h, hft, evenOf_of_even hft, oddOf_of_even hft]

end Double

/-! ## Loads of unit 1 -/

/-- A load that is remembered and changes only registers of unit 1. -/
theorem writesFgrs_retire {s s' : State} {type : AccessType} {cells : List Nat} {except : List Reg}
    (h : ChangesFgrs (s.remember .load type cells) s' except) (memory : Bool) :
    WritesFgrs s (s.retire (passedTraits memory) s' .none) except := by
  rw [h.rest]
  exact
    { fgrs := h.fgrs
      control := h.control
      others := ⟨rfl, rfl, rfl, rfl, rfl⟩
      gprs := fun _ _ => rfl
      hilo := ⟨rfl, rfl, rfl⟩
      guards := ⟨rfl, rfl⟩
      link := keepsLink_retire ⟨rfl, rfl⟩
      memory := fun _ _ => rfl
      advances := advances_retire rfl rfl rfl }

/-- A load of unit 1 that nothing stops leaves in the registers what `f` makes of the value of the cells. -/
theorem exec_fpuLoad {s s' : State} {i : Instr} {v : Word} {n pa : Nat} {type : AccessType} {except : List Reg}
    {f : Nat → State → State}
    (hexec : exec i s = s.issue (passedTraits true) fun _ => s.load v n fun w s' => (f w s').complete)
    (hal : v.toNat % n = 0) (hacc : Accessible s .load v pa type (dataCells s.params pa n))
    (hf : f (s.readCells (dataCells s.params pa n)) (s.remember .load type (dataCells s.params pa n)) = s')
    (hchanges : ChangesFgrs (s.remember .load type (dataCells s.params pa n)) s' except) :
    ∃ t, exec i s = .next t ∧ (∀ j, t.fgr j = s'.fgr j) ∧ WritesFgrs s t except ∧
      Records s t type false (dataCells s.params pa n) := by
  have hdone : s.load v n (fun w s' => (f w s').complete) = s'.complete :=
    (load_eq hal hacc.translated hacc.unmixed hacc.quiet).trans (congrArg State.complete hf)
  have hrecords : Records s s' type false (dataCells s.params pa n) := by
    rw [hchanges.rest]
    exact records_remember s .load type _
  exact ⟨_, hexec.trans (issue_of_done (admits_passed s true) hdone), fun _ => rfl, writesFgrs_retire hchanges true,
    hrecords⟩

/-- Settles O51: a word goes into one register, a doubleword into one wide register or a pair of narrow ones. -/
theorem fpuLoads : Obligations.FpuLoads := by
  intro s base index ft offset v pa type i hsettled hlevel husable
  rw [← ofNat_readCells_four, ← ofNat_readCells_eight]
  refine ⟨fun hi hal hacc => ?word, fun hi hal hacc => ?double⟩
  case word =>
    obtain ⟨t, hnext, hfgr, hwrites, hrecords⟩ := exec_fpuLoad (exec_fpuLoadWord hsettled hlevel husable hi) hal hacc
      rfl (changesFgrs_setFgr _ ft _)
    exact ⟨t, hnext, by rw [hfgr, low32_fgr_copLoadWord1], hwrites, hrecords⟩
  case double =>
    have hexec := exec_fpuLoadDouble hsettled hlevel husable hi
    rw [toNat_mod_two]
    cases hwide : s.params.statusFR with
    | true =>
      obtain ⟨t, hnext, hfgr, hwrites, hrecords⟩ := exec_fpuLoad hexec hal hacc
        (copLoadDouble1_of_wide (s := s.remember .load type _) hwide _) (changesFgrs_setFgr _ ft _)
      exact ⟨t, hnext, hrecords, by rw [hfgr, fgr_setFgr, if_pos rfl], hwrites⟩
    | false =>
      cases hft : ft[0] with
      | false =>
        obtain ⟨t, hnext, hfgr, hwrites, hrecords⟩ := exec_fpuLoad hexec hal hacc
          (copLoadDouble1_of_even (s := s.remember .load type _) hwide hft _) (changesFgrs_setPair _ ft _ _)
        rw [evenOf_of_even hft, oddOf_of_even hft] at hwrites
        exact ⟨t, hnext, hrecords, by rw [hfgr, hfgr, fgr_setPair_even hft], hwrites⟩
      | true =>
        obtain ⟨t, hnext, -, hwrites, hrecords⟩ := exec_fpuLoad hexec hal hacc
          (copLoadDouble1_of_odd (s := s.remember .load type _) hwide hft _) (changesFgrs_setPair _ ft _ _)
        obtain ⟨heven, hodd⟩ := pair_of_odd hft
        rw [heven, hodd] at hwrites
        exact ⟨t, hnext, hrecords, hwrites⟩

/-! ## Stores of unit 1 -/

/-- A store of unit 1 that nothing stops writes the value supplied to the cells only. -/
theorem exec_fpuStore {s : State} {i : Instr} {v : Word} {n pa value : Nat} {type : AccessType}
    (hexec : exec i s = s.issue (passedTraits true) fun _ => s.store v n value State.complete)
    (hwf : Memory.wf s.mem = true) (hal : v.toNat % n = 0)
    (hacc : Accessible s .store v pa type (dataCells s.params pa n)) :
    ∃ t, exec i s = .next t ∧ WritesMemory s t type (dataCells s.params pa n) ∧
      t.mem = (s.writeCells (dataCells s.params pa n) value).mem := by
  rw [hexec]
  exact issue_of_stored {} (admits_passed s true) hwf (store_eq hal hacc.translated hacc.unmixed)

/-- Settles O52: a word is the low half of the register, a doubleword the wide register or the pair of narrow ones. -/
theorem fpuStores : Obligations.FpuStores := by
  intro s base index ft offset v pa type i hsettled hlevel husable hwf
  refine ⟨fun hi hal hacc => ?word, fun hi hal hacc => ?double⟩
  case word =>
    obtain ⟨t, hnext, hwrites, hmem⟩ :=
      exec_fpuStore (exec_fpuStoreWord hsettled hlevel husable hi) hwf hal hacc
    exact ⟨t, hnext, (wordAt_congr hmem hwrites.advances.params pa).trans (wordAt_writeCells hwf pa _), hwrites⟩
  case double =>
    obtain ⟨t, hnext, hwrites, hmem⟩ :=
      exec_fpuStore (exec_fpuStoreDouble hsettled hlevel husable hi) hwf hal hacc
    have hdata : t.doubleAt pa = s.copStoreDouble1 ft :=
      (doubleAt_congr hmem hwrites.advances.params pa).trans (doubleAt_writeCells hwf pa _)
    refine ⟨t, hnext, hwrites, fun hwide => hdata.trans (copStoreDouble1_of_wide hwide), fun hnarrow heven => ?_⟩
    have hft : ft[0] = false := by simpa [toNat_mod_two] using heven
    exact hdata.trans (copStoreDouble1_of_even hnarrow hft)

end Sys2Proof.Machine
end

section
/-! SUPPORT. The arithmetic, comparison and logic instructions (42_alu.md): word values and sums as integers, what an
instruction leaves that delivers a result, overflows, or writes `HI` and `LO`, and the results themselves. -/

namespace Sys2Proof.Machine

/-! ## Sums and differences as integers (00_scope.md R9) -/

theorem add_eq_ofInt (x y : Word) : x + y = BitVec.ofInt 64 (x.toInt + y.toInt) := by
  rw [BitVec.ofInt_add, BitVec.ofInt_toInt, BitVec.ofInt_toInt]

theorem sub_eq_ofInt (x y : Word) : x - y = BitVec.ofInt 64 (x.toInt - y.toInt) := by
  rw [Int.sub_eq_add_neg, BitVec.ofInt_add, BitVec.ofInt_neg, BitVec.ofInt_toInt, BitVec.ofInt_toInt,
    BitVec.sub_eq_add_neg]

theorem toInt_sext64_immediate (immediate : BitVec 16) : (sext64 immediate).toInt = immediate.toInt :=
  BitVec.toInt_signExtend_of_le (by decide)

theorem add_sext64_eq_ofInt (x : Word) (immediate : BitVec 16) :
    x + sext64 immediate = BitVec.ofInt 64 (x.toInt + immediate.toInt) := by
  rw [add_eq_ofInt, toInt_sext64_immediate]

/-! ## Word values (00_scope.md R10, 10_state.md R36) -/

/-- The integer fits a word. -/
abbrev FitsWord (n : Int) : Prop := -2 ^ 31 ≤ n ∧ n ≤ 2 ^ 31 - 1

/-- The integer fits a doubleword. -/
abbrev FitsDouble (n : Int) : Prop := -2 ^ 63 ≤ n ∧ n ≤ 2 ^ 63 - 1

theorem fitsWord_of_isWordValue {v : Word} (h : IsWordValue v) : FitsWord v.toInt := by
  have hbits : v.toNat / 2 ^ 31 % 2 ^ 33 = 0 ∨ v.toNat / 2 ^ 31 % 2 ^ 33 = 2 ^ 33 - 1 := by
    simpa [IsWordValue, ← BitVec.toNat_inj, Nat.shiftRight_eq_div_pow] using h
  rw [FitsWord, BitVec.toInt_eq_toNat_cond]
  omega

theorem toInt_immediate_bounds (immediate : BitVec 16) : -2 ^ 15 ≤ immediate.toInt ∧ immediate.toInt < 2 ^ 15 :=
  ⟨BitVec.le_toInt immediate, BitVec.toInt_lt⟩

/-- The low word of an integer of 64 bits is the integer modulo 2^32. -/
theorem low32_ofInt (n : Int) : low32 (BitVec.ofInt 64 n) = BitVec.ofInt 32 n := by
  refine BitVec.eq_of_toNat_eq ?_
  rw [low32, BitVec.toNat_setWidth, BitVec.toNat_ofInt, BitVec.toNat_ofInt]
  omega

/-- An integer that fits a word is the sign extension of its low word. -/
theorem sext64_ofInt_of_fitsWord {n : Int} (h : FitsWord n) : sext64 (BitVec.ofInt 32 n) = BitVec.ofInt 64 n :=
  congrArg (BitVec.ofInt 64) (BitVec.toInt_ofInt_eq_self (by decide) h.1 (Int.lt_of_le_sub_one h.2))

theorem notWordValue_of_isWordValue {v : Word} (h : IsWordValue v) : notWordValue v = false := by
  have hsext : sext64 (low32 v) = v := by
    rw [← BitVec.ofInt_toInt (x := v), low32_ofInt, sext64_ofInt_of_fitsWord (fitsWord_of_isWordValue h)]
  rw [notWordValue, hsext, bne_self_eq_false]

theorem areWords_of_isWordValue {s : State} {rs rt : Reg} (hs : IsWordValue (s.x rs)) (ht : IsWordValue (s.x rt)) :
    s.areWords rs rt = true := by
  rw [State.areWords, notWordValue_of_isWordValue hs, notWordValue_of_isWordValue ht]
  rfl

/-- Of an integer of 33 bits, bits 32 and 31 differ just when it does not fit a word. -/
theorem wordOverflow_ofInt {n : Int} (h : -2 ^ 32 ≤ n ∧ n < 2 ^ 32) :
    wordOverflow (BitVec.ofInt 64 n) = !decide (FitsWord n) := by
  simp only [wordOverflow, ← BitVec.testBit_toNat, Nat.testBit_eq_decide_div_mod_eq, BitVec.toNat_ofInt]
  rw [Bool.eq_iff_iff]
  simp only [bne_iff_ne, ne_eq, decide_eq_decide, Bool.not_eq_true', decide_eq_false_iff_not]
  omega

/-! ## What is delivered (42_alu.md R231) -/

section Deliver
variable {s : State} {rd : Reg} {n : Int} {words : Bool} {temp : Word}

theorem deliverWord_of_words (hwords : words = true) (htemp : temp = BitVec.ofInt 64 n) :
    s.deliverWord words rd (low32 temp) = s.deliver rd (sext64 (BitVec.ofInt 32 n)) := by
  rw [hwords, htemp, low32_ofInt]
  rfl

/-- The sum or difference of word values is delivered when it fits a word (R245). -/
theorem deliverTrapping_of_words (hwords : words = true) (htemp : temp = BitVec.ofInt 64 n)
    (hn : -2 ^ 32 ≤ n ∧ n < 2 ^ 32) :
    s.deliverTrapping words rd temp =
      if FitsWord n then s.deliver rd (BitVec.ofInt 64 n) else .raise .integerOverflow := by
  unfold State.deliverTrapping
  rw [deliverWord_of_words hwords htemp, hwords, htemp, if_pos rfl, wordOverflow_ofInt hn]
  by_cases hfits : FitsWord n
  · rw [sext64_ofInt_of_fitsWord hfits, decide_eq_true hfits, if_pos hfits]
    rfl
  · rw [decide_eq_false hfits, if_neg hfits]
    rfl

/-- Whatever the operands are, ADD, ADDI and SUB overflow or deliver (note 13). -/
theorem deliverTrapping_cases (s : State) (words : Bool) (rd : Reg) (temp : Word) :
    s.deliverTrapping words rd temp = .raise .integerOverflow ∨
      ∃ v, s.deliverTrapping words rd temp = s.deliver rd v := by
  by_cases hoverflow : (if words then wordOverflow temp else s.freeBit 0) = true
  · exact .inl (if_pos hoverflow)
  · exact .inr ⟨_, if_neg hoverflow⟩

theorem deliverDouble_eq (s : State) (rd : Reg) (n : Int) :
    s.deliverDouble rd n =
      if FitsDouble n then s.deliver rd (BitVec.ofInt 64 n) else .raise .integerOverflow := by
  have hoverflow : doubleOverflow n = !decide (FitsDouble n) := by
    rw [Bool.eq_iff_iff]
    simp [doubleOverflow]
  unfold State.deliverDouble
  rw [hoverflow]
  by_cases hfits : FitsDouble n
  · rw [decide_eq_true hfits, if_pos hfits]
    rfl
  · rw [decide_eq_false hfits, if_neg hfits]
    rfl

/-- With both guards down, a multiply or divide writes `HI` and `LO`, whatever its operands are. -/
theorem deliverHiLo_of_unguarded (h : s.unguarded = true) (defined : Bool) (hi lo : Word) :
    s.deliverHiLo defined hi lo =
      (s.setHiLo (if defined then hi else s.freeWord 0) (if defined then lo else s.freeWord 1)).complete := by
  have hdown : ¬ (0 < s.hiGuard ∨ 0 < s.loGuard) := by
    simpa [State.unguarded] using h
  rw [State.deliverHiLo, State.mayWriteHiLo, if_neg hdown]
  cases defined <;> rfl

end Deliver

/-! ## What an instruction leaves that delivers a result -/

/-- An instruction of MIPS I may have none of its sources in the load delay slot. -/
theorem admits_reads {s : State} {rs reads : List Reg} (h : s.settled rs = true) (hreads : reads ⊆ rs) :
    Admits s { reads := reads } :=
  PlainTraits.admits {} (supports_I s) (loadHazard_of_settled h hreads rfl)

section Issue
variable {s : State} {t : Traits} {rule : State → Effect} {rd : Reg} {v hi lo : Word} (ht : PlainTraits t)
  (hadm : Admits s t)

include hadm in
theorem issue_of_overflow (hrule : rule s = .raise .integerOverflow) :
    ∃ t', s.issue t rule = .next t' ∧ Raises s t' .integerOverflow :=
  ⟨_, issue_of_raise hadm hrule, raises_takeException s _⟩

include ht hadm

/-- An instruction that delivers a value writes it, as a load of no bytes would. -/
theorem issue_of_deliver (hrule : rule s = s.deliver rd v) :
    ∃ t', s.issue t rule = .next t' ∧ WritesGpr s t' rd v .none := by
  obtain ⟨t', hnext, hwrites, -⟩ := issue_of_loaded (type := .uncached) (cells := []) ht hadm hrule
  exact ⟨t', hnext, hwrites⟩

theorem issue_of_deliver_some (hrule : rule s = s.deliver rd v) :
    ∃ t' v, s.issue t rule = .next t' ∧ WritesGpr s t' rd v .none := by
  obtain ⟨t', h⟩ := issue_of_deliver ht hadm hrule
  exact ⟨t', v, h⟩

/-- An instruction that delivers a value that fits, and else overflows. -/
theorem issue_of_deliverFitting {fits : Prop} [Decidable fits]
    (hrule : rule s = if fits then s.deliver rd v else .raise .integerOverflow) :
    ∃ t', s.issue t rule = .next t' ∧ if fits then WritesGpr s t' rd v .none else Raises s t' .integerOverflow := by
  by_cases hfits : fits
  · simp only [if_pos hfits] at hrule ⊢
    exact issue_of_deliver ht hadm hrule
  · simp only [if_neg hfits] at hrule ⊢
    exact issue_of_overflow hadm hrule

/-- ADD, ADDI and SUB of any operands. -/
theorem issue_of_deliverTrapping {words : Bool} {temp : Word} (hrule : rule s = s.deliverTrapping words rd temp) :
    ∃ t', s.issue t rule = .next t' ∧ (Raises s t' .integerOverflow ∨ ∃ v, WritesGpr s t' rd v .none) := by
  rcases deliverTrapping_cases s words rd temp with hraise | ⟨v, hdone⟩
  · obtain ⟨t', hnext, hraises⟩ := issue_of_overflow hadm (hrule.trans hraise)
    exact ⟨t', hnext, .inl hraises⟩
  · obtain ⟨t', hnext, hwrites⟩ := issue_of_deliver ht hadm (hrule.trans hdone)
    exact ⟨t', hnext, .inr ⟨v, hwrites⟩⟩

/-- An instruction that completes with `HI` and `LO` replaced writes nothing else. -/
theorem issue_of_setHiLo (hrule : rule s = (s.setHiLo hi lo).complete) :
    ∃ t', s.issue t rule = .next t' ∧ WritesHiLo s t' hi lo := by
  refine ⟨_, issue_of_done hadm hrule, ?_⟩
  exact
    { hi := rfl
      lo := rfl
      fresh := rfl
      gprs := fun _ _ => rfl
      guards := ⟨by rw [retire_hiGuard, ht.readsHi]; rfl, by rw [retire_loGuard, ht.readsLo]; rfl⟩
      link := keepsLink_retire ⟨rfl, rfl⟩
      cops := ⟨rfl, rfl, rfl, rfl, rfl, rfl⟩
      memory := fun _ _ => rfl
      advances := advances_retire rfl rfl rfl }

/-- A multiply or divide with both guards down. -/
theorem issue_of_deliverHiLo {defined : Bool} (hfree : s.unguarded = true)
    (hrule : rule s = s.deliverHiLo defined hi lo) :
    ∃ t' hi lo, s.issue t rule = .next t' ∧ WritesHiLo s t' hi lo := by
  obtain ⟨t', h⟩ := issue_of_setHiLo ht hadm (hrule.trans (deliverHiLo_of_unguarded hfree ..))
  exact ⟨t', _, _, h⟩

end Issue

/-! ## Comparisons and immediates -/

theorem toNat_sext64_immediate (immediate : BitVec 16) :
    (sext64 immediate).toNat =
      if immediate.toNat < 2 ^ 15 then immediate.toNat else immediate.toNat + (2 ^ 64 - 2 ^ 16) := by
  have hlt := immediate.isLt
  rw [sext64, BitVec.toNat_signExtend, BitVec.toNat_setWidth, Nat.mod_eq_of_lt (by omega), BitVec.msb_eq_decide]
  by_cases h : immediate.toNat < 2 ^ 15
  · rw [if_pos h, if_neg (by simpa using h)]
    rfl
  · rw [if_neg h, if_pos (by simpa using h)]

theorem truthValue_lessSigned (a b : Word) :
    truthValue (lessSigned a b) = if a.toInt < b.toInt then 1#64 else 0#64 := by
  simp [truthValue, lessSigned]

theorem truthValue_lessUnsigned (a b : Word) :
    truthValue (lessUnsigned a b) = if a.toNat < b.toNat then 1#64 else 0#64 := by
  simp [truthValue, lessUnsigned]

/-- Only the low 16 bits of the register remain (R236). -/
theorem zext64_and (immediate : BitVec 16) (x : Word) :
    zext64 immediate &&& x = BitVec.ofNat 64 (x.toNat % 2 ^ 16 &&& immediate.toNat) := by
  have hlow : x.toNat % 2 ^ 16 &&& immediate.toNat = x.toNat &&& immediate.toNat := by
    rw [← Nat.mod_eq_of_lt (Nat.and_lt_two_pow x.toNat immediate.isLt), Nat.and_mod_two_pow,
      Nat.mod_eq_of_lt immediate.isLt]
  rw [hlow, BitVec.ofNat_and, BitVec.ofNat_toNat, BitVec.ofNat_toNat, BitVec.setWidth_eq, BitVec.and_comm]
  rfl

theorem zext64_or (immediate : BitVec 16) (x : Word) :
    zext64 immediate ||| x = BitVec.ofNat 64 (x.toNat ||| immediate.toNat) := by
  rw [BitVec.ofNat_or, BitVec.ofNat_toNat, BitVec.ofNat_toNat, BitVec.setWidth_eq, BitVec.or_comm]
  rfl

theorem zext64_xor (immediate : BitVec 16) (x : Word) :
    zext64 immediate ^^^ x = BitVec.ofNat 64 (x.toNat ^^^ immediate.toNat) := by
  rw [BitVec.ofNat_xor, BitVec.ofNat_toNat, BitVec.ofNat_toNat, BitVec.setWidth_eq, BitVec.xor_comm]
  rfl

/-- The immediate in bits 31..16, sign-extended, is its multiple of 2^16 (R239). -/
theorem sext64_append_zero (immediate : BitVec 16) :
    sext64 (immediate ++ 0#16) = BitVec.ofInt 64 (immediate.toInt * 2 ^ 16) := by
  have hvalue : (immediate ++ 0#16).toInt = immediate.toInt * 2 ^ 16 := by
    rw [BitVec.toInt_append]
    simp [Int.mul_comm]
  exact congrArg (BitVec.ofInt 64) hvalue

/-! ## The statements -/

/-- Settles O26: the sum or difference of two word values has 33 bits. -/
theorem wordSums : Obligations.WordSums := by
  intro s rs rt rd immediate hsettled hrs hrt
  have hwords := areWords_of_isWordValue hrs hrt
  have hword : (!notWordValue (s.x rs)) = true :=
    congrArg not (notWordValue_of_isWordValue hrs)
  have ha := fitsWord_of_isWordValue hrs
  have hb := fitsWord_of_isWordValue hrt
  have himm := toInt_immediate_bounds immediate
  have hboth : Admits s { reads := [rs, rt] } := admits_reads hsettled (List.Subset.refl _)
  have hone : Admits s { reads := [rs] } := admits_reads hsettled (by simp)
  unfold exec
  refine ⟨?add, ?sub, ?addi⟩
  case add =>
    exact issue_of_deliverFitting {} hboth (deliverTrapping_of_words hwords (add_eq_ofInt ..) (by omega))
  case sub =>
    exact issue_of_deliverFitting {} hboth (deliverTrapping_of_words hwords (sub_eq_ofInt ..) (by omega))
  case addi =>
    exact issue_of_deliverFitting {} hone (deliverTrapping_of_words hword (add_sext64_eq_ofInt ..) (by omega))

/-- Settles O27: the low word of the sum or difference is delivered. -/
theorem wordModuloSums : Obligations.WordModuloSums := by
  intro s rs rt rd immediate hsettled hrs hrt
  have hwords := areWords_of_isWordValue hrs hrt
  have hword : (!notWordValue (s.x rs)) = true :=
    congrArg not (notWordValue_of_isWordValue hrs)
  have hboth : Admits s { reads := [rs, rt] } := admits_reads hsettled (List.Subset.refl _)
  have hone : Admits s { reads := [rs] } := admits_reads hsettled (by simp)
  unfold exec
  refine ⟨?addu, ?subu, ?addiu⟩
  case addu => exact issue_of_deliver {} hboth (deliverWord_of_words hwords (add_eq_ofInt ..))
  case subu => exact issue_of_deliver {} hboth (deliverWord_of_words hwords (sub_eq_ofInt ..))
  case addiu => exact issue_of_deliver {} hone (deliverWord_of_words hword (add_sext64_eq_ofInt ..))

/-- Settles O28: the delivery of a word result completes or overflows whatever the operands are. -/
theorem nonWordOperandsRun : Obligations.NonWordOperandsRun := by
  intro s rs rt rd immediate sa hsettled
  have hboth : Admits s { reads := [rs, rt] } := admits_reads hsettled (List.Subset.refl _)
  have hrs : Admits s { reads := [rs] } := admits_reads hsettled (by simp)
  have hrt : Admits s { reads := [rt] } := admits_reads hsettled (by simp)
  unfold exec
  refine ⟨fun _ => ⟨?add, ?sub, ?addu, ?subu, fun hfree => ⟨?mult, ?multu, ?div, ?divu⟩⟩, fun _ => ⟨?addi, ?addiu⟩,
    fun _ => ⟨?srl, ?sra, ?srlv, ?srav⟩⟩
  case add | sub => exact issue_of_deliverTrapping {} hboth rfl
  case addi => exact issue_of_deliverTrapping {} hrs rfl
  case addu | subu | srlv | srav => exact issue_of_deliver_some {} hboth rfl
  case addiu => exact issue_of_deliver_some {} hrs rfl
  case srl | sra => exact issue_of_deliver_some {} hrt rfl
  case mult | multu | div | divu => exact issue_of_deliverHiLo {} hboth hfree rfl

/-- Settles O29: the exact sum or difference is delivered when it fits, else modulo 2^64; the words are those that the
encoder makes. -/
theorem doubleSums : Obligations.DoubleSums := by
  intro s rs rt rd immediate
  refine ⟨fun hlevel => ?run, fun hlevel i hi => ?reserved, decode_of_encode rfl, decode_of_encode rfl,
    decode_of_encode rfl, decode_of_encode rfl, decode_of_encode rfl, decode_of_encode rfl⟩
  case run =>
    have hadm : Admits s { level := .III } := admits_noReads hlevel false
    rw [add_eq_ofInt, sub_eq_ofInt, add_sext64_eq_ofInt]
    unfold exec
    refine ⟨?dadd, ?dsub, ?daddi, ?daddu, ?dsubu, ?daddiu⟩
    case dadd | dsub => exact issue_of_deliverFitting {} hadm (deliverDouble_eq ..)
    case daddi =>
      rw [← toInt_sext64_immediate]
      exact issue_of_deliverFitting {} hadm (deliverDouble_eq ..)
    case daddu => exact issue_of_deliver {} hadm (congrArg (s.deliver rd) (add_eq_ofInt ..))
    case dsubu => exact issue_of_deliver {} hadm (congrArg (s.deliver rd) (sub_eq_ofInt ..))
    case daddiu => exact issue_of_deliver {} hadm (congrArg (s.deliver rt) (add_sext64_eq_ofInt ..))
  case reserved =>
    have hilevel : i.level = .III := by rcases hi with rfl | rfl | rfl | rfl | rfl | rfl <;> rfl
    exact (levelGate i s).1 (hilevel ▸ hlevel)

/-- Settles O30: the comparison of the model is the comparison of integers, of an immediate after its sign extension. -/
theorem comparisons : Obligations.Comparisons := by
  intro s rs rt rd immediate hsettled
  have hboth : Admits s { reads := [rs, rt] } := admits_reads hsettled (List.Subset.refl _)
  have hone : Admits s { reads := [rs] } := admits_reads hsettled (by simp)
  unfold exec
  rw [← toInt_sext64_immediate, ← toNat_sext64_immediate]
  simp only [← truthValue_lessSigned, ← truthValue_lessUnsigned]
  exact ⟨issue_of_deliver {} hboth rfl, issue_of_deliver {} hone rfl, issue_of_deliver {} hboth rfl,
    issue_of_deliver {} hone rfl, decode_of_encode rfl, decode_of_encode rfl, decode_of_encode rfl,
    decode_of_encode rfl⟩

/-- Settles O31: the forms with an immediate do with its zero extension what the others do with a register. -/
theorem logicResults : Obligations.LogicResults := by
  intro s rs rt rd immediate hsettled
  have hboth : Admits s { reads := [rs, rt] } := admits_reads hsettled (List.Subset.refl _)
  have hone : Admits s { reads := [rs] } := admits_reads hsettled (by simp)
  have hnone : Admits s {} := admits_reads hsettled (List.nil_subset _)
  unfold exec
  rw [← zext64_and, ← zext64_or, ← zext64_xor, ← sext64_append_zero]
  refine ⟨?and, ?or, ?xor, ?nor, ?andi, ?ori, ?xori, ?lui, decode_of_encode rfl, decode_of_encode rfl,
    decode_of_encode rfl, decode_of_encode rfl, decode_of_encode rfl, decode_of_encode rfl, decode_of_encode rfl,
    decode_of_encode rfl⟩
  case and | or | xor | nor => exact issue_of_deliver {} hboth rfl
  case andi | ori | xori => exact issue_of_deliver {} hone rfl
  case lui => exact issue_of_deliver {} hnone rfl

end Sys2Proof.Machine
end

section
/-! SUPPORT. The shifts (43_shift.md): shift amounts as remainders, the bits of a shifted value, and what an
instruction leaves that delivers a shifted operand. -/

namespace Sys2Proof.Machine

/-! ## Shift amounts (30_encoding.md R129, 43_shift.md R270) -/

theorem wordAmount_eq (v : Word) : wordAmount v = v.toNat % 32 := BitVec.toNat_setWidth ..

theorem doubleAmount_eq (v : Word) : doubleAmount v = v.toNat % 64 := BitVec.toNat_setWidth ..

/-! ## The bits of a shifted value, of any width -/

section Bits
variable {w k : Nat}

theorem getLsbD_shiftLeft_of_lt (hk : k < w) (x : BitVec w) (n : Nat) :
    (x <<< n).getLsbD k = (decide (n ≤ k) && x.getLsbD (k - n)) := by
  have hshifted : (!decide (k < n)) = decide (n ≤ k) := by rw [← decide_not, decide_eq_decide, Nat.not_lt]
  rw [BitVec.getLsbD_shiftLeft, decide_eq_true hk, Bool.true_and, hshifted]

/-- Above the top bit zeros come in. -/
theorem getLsbD_ushiftRight_eq (x : BitVec w) (n : Nat) :
    (x >>> n).getLsbD k = (decide (k + n < w) && x.getLsbD (k + n)) := by
  rw [BitVec.getLsbD_ushiftRight, Nat.add_comm n k]
  by_cases hin : k + n < w
  · rw [decide_eq_true hin, Bool.true_and]
  · rw [decide_eq_false hin, Bool.false_and, BitVec.getLsbD_of_ge x (k + n) (Nat.le_of_not_lt hin)]

/-- Above the top bit copies of it come in. -/
theorem getLsbD_sshiftRight_of_lt (hk : k < w) (x : BitVec w) (n : Nat) :
    (x.sshiftRight n).getLsbD k = if k + n < w then x.getLsbD (k + n) else x.getLsbD (w - 1) := by
  rw [BitVec.getLsbD_sshiftRight, decide_eq_false (Nat.not_le_of_lt hk), Nat.add_comm n k,
    BitVec.msb_eq_getLsbD_last]
  rfl

end Bits

/-! ## The bits of a shifted low word -/

section LowWord
variable {k : Nat} (v : Word)

theorem getLsbD_low32 (hk : k < 32) : (low32 v).getLsbD k = v.getLsbD k := by
  simp [low32, hk]

theorem getLsbD_low32_shiftLeft (hk : k < 32) (n : Nat) :
    (low32 v <<< n).getLsbD k = (decide (n ≤ k) && v.getLsbD (k - n)) := by
  rw [getLsbD_shiftLeft_of_lt hk, getLsbD_low32 v (Nat.lt_of_le_of_lt (Nat.sub_le k n) hk)]

theorem getLsbD_low32_ushiftRight (n : Nat) :
    (low32 v >>> n).getLsbD k = (decide (k + n < 32) && v.getLsbD (k + n)) := by
  rw [getLsbD_ushiftRight_eq]
  by_cases hin : k + n < 32
  · rw [getLsbD_low32 v hin]
  · rw [decide_eq_false hin, Bool.false_and, Bool.false_and]

theorem getLsbD_low32_sshiftRight (hk : k < 32) (n : Nat) :
    ((low32 v).sshiftRight n).getLsbD k = if k + n < 32 then v.getLsbD (k + n) else v.getLsbD 31 := by
  rw [getLsbD_sshiftRight_of_lt hk]
  exact ite_congr rfl (getLsbD_low32 v) fun _ => getLsbD_low32 v (by decide)

end LowWord

/-! ## What a shift leaves -/

/-- A right shift of a word value delivers its result sign-extended (R272). -/
theorem deliverWord_of_isWordValue {v : Word} (h : IsWordValue v) (s : State) (rd : Reg) (r : Word32) :
    s.deliverWord (!notWordValue v) rd r = s.deliver rd (sext64 r) := by
  rw [notWordValue_of_isWordValue h]
  rfl

/-- An instruction that delivers what `extend` makes of a result writes it; the result keeps what holds of it. -/
theorem issue_of_deliver_result {s : State} {t : Traits} {rule : State → Effect} {rd : Reg} {α : Type}
    {extend : α → Word} {result : α} {Holds : α → Prop} (ht : PlainTraits t) (hadm : Admits s t)
    (hrule : rule s = s.deliver rd (extend result)) (hholds : Holds result) :
    ∃ t' r, s.issue t rule = .next t' ∧ WritesGpr s t' rd (extend r) .none ∧ Holds r := by
  obtain ⟨t', hnext, hwrites⟩ := issue_of_deliver ht hadm hrule
  exact ⟨t', result, hnext, hwrites, hholds⟩

/-- The three forms of a doubleword shift deliver the same shift, each by its own amount (R277 to R285). -/
theorem exec_doubleShift {s : State} {short long byRegister i : Instr} {rs rt rd : Reg} {sa : BitVec 5} {n : Nat}
    {shift : Word → Nat → Word} {Holds : Word → Prop} (hlevel : s.supports .III = true)
    (hshort : exec short s = s.issue { level := .III } fun s => s.deliver rd (shift (s.x rt) sa.toNat))
    (hlong : exec long s = s.issue { level := .III } fun s => s.deliver rd (shift (s.x rt) (32 + sa.toNat)))
    (hbyRegister : exec byRegister s =
      s.issue { level := .III } fun s => s.deliver rd (shift (s.x rt) (doubleAmount (s.x rs))))
    (hi : (i = short ∧ n = sa.toNat) ∨ (i = long ∧ n = 32 + sa.toNat) ∨ (i = byRegister ∧ n = (s.x rs).toNat % 64))
    (hholds : Holds (shift (s.x rt) n)) :
    ∃ t v, exec i s = .next t ∧ WritesGpr s t rd v .none ∧ Holds v := by
  obtain ⟨rule, hexec, hrule⟩ :
      ∃ rule, exec i s = s.issue { level := .III } rule ∧ rule s = s.deliver rd (shift (s.x rt) n) := by
    rw [← doubleAmount_eq] at hi
    rcases hi with ⟨rfl, rfl⟩ | ⟨rfl, rfl⟩ | ⟨rfl, rfl⟩
    · exact ⟨_, hshort, rfl⟩
    · exact ⟨_, hlong, rfl⟩
    · exact ⟨_, hbyRegister, rfl⟩
  rw [hexec]
  exact issue_of_deliver_result (extend := id) {} (admits_noReads hlevel false) hrule hholds

/-! ## The statements -/

/-- Settles O32: the low word is shifted, and its bits are those of the operand. -/
theorem wordShifts : Obligations.WordShifts := by
  intro s rs rt rd sa hsettled
  have hboth : Admits s { reads := [rs, rt] } := admits_reads hsettled (List.Subset.refl _)
  have hone : Admits s { reads := [rt] } := admits_reads hsettled (by simp)
  rw [← wordAmount_eq]
  unfold exec
  refine ⟨?sll, ?sllv, fun hword => ?right⟩
  case sll => exact issue_of_deliver_result {} hone rfl fun k hk => getLsbD_low32_shiftLeft _ hk _
  case sllv => exact issue_of_deliver_result {} hboth rfl fun k hk => getLsbD_low32_shiftLeft _ hk _
  case right =>
    have hdeliver := deliverWord_of_isWordValue hword s rd
    refine ⟨?srl, ?srlv, ?sra, ?srav⟩
    case srl => exact issue_of_deliver_result {} hone (hdeliver _) fun k _ => getLsbD_low32_ushiftRight _ _
    case srlv => exact issue_of_deliver_result {} hboth (hdeliver _) fun k _ => getLsbD_low32_ushiftRight _ _
    case sra => exact issue_of_deliver_result {} hone (hdeliver _) fun k hk => getLsbD_low32_sshiftRight _ hk _
    case srav => exact issue_of_deliver_result {} hboth (hdeliver _) fun k hk => getLsbD_low32_sshiftRight _ hk _

/-- Settles O33: the three forms of each shift differ in their amount alone; the words are those that the encoder
makes. -/
theorem doubleShifts : Obligations.DoubleShifts := by
  intro s rs rt rd sa
  refine ⟨fun hlevel => ⟨fun i n hi => ?left, fun i n hi => ?logical, fun i n hi => ?arithmetic⟩,
    fun hlevel i hi => ?reserved, decode_of_encode rfl, decode_of_encode rfl, decode_of_encode rfl,
    decode_of_encode rfl, decode_of_encode rfl, decode_of_encode rfl, decode_of_encode rfl, decode_of_encode rfl,
    decode_of_encode rfl⟩
  case left =>
    exact exec_doubleShift (shift := (· <<< ·)) hlevel rfl rfl rfl hi fun k hk => getLsbD_shiftLeft_of_lt hk _ _
  case logical =>
    exact exec_doubleShift (shift := (· >>> ·)) hlevel rfl rfl rfl hi fun k _ => getLsbD_ushiftRight_eq _ _
  case arithmetic =>
    exact exec_doubleShift (shift := BitVec.sshiftRight) hlevel rfl rfl rfl hi fun k hk =>
      getLsbD_sshiftRight_of_lt hk _ _
  case reserved =>
    have hilevel : i.level = .III := by rcases hi with rfl | rfl | rfl | rfl | rfl | rfl | rfl | rfl | rfl <;> rfl
    exact (levelGate i s).1 (hilevel ▸ hlevel)

end Sys2Proof.Machine
end

section
/-! SUPPORT. Multiply, divide and the moves of `HI` and `LO` (44_muldiv.md): the halves of an exact product, quotients
and remainders as integers, and what an instruction leaves that writes or reads `HI` and `LO`. -/

namespace Sys2Proof.Machine

/-! ## Word operands as integers (44_muldiv.md R301) -/

theorem toInt_low32 {v : Word} (h : IsWordValue v) : (low32 v).toInt = v.toInt := by
  obtain ⟨hle, hlt⟩ := fitsWord_of_isWordValue h
  rw [← BitVec.ofInt_toInt (x := v), low32_ofInt, BitVec.ofInt_toInt]
  exact BitVec.toInt_ofInt_eq_self (by decide) hle (Int.lt_of_le_sub_one hlt)

theorem toNat_low32 (v : Word) : (low32 v).toNat = v.toNat % 2 ^ 32 := BitVec.toNat_setWidth ..

theorem toInt_ne_zero {w : Nat} {x : BitVec w} (h : x ≠ 0#w) : x.toInt ≠ 0 := by
  rwa [← BitVec.toInt_zero (w := w), BitVec.toInt_ne]

/-- The low word of a word value that is not zero is not zero. -/
theorem toNat_low32_pos {v : Word} (hword : IsWordValue v) (h : v ≠ 0#64) : 0 < (low32 v).toNat := by
  refine BitVec.toNat_pos_of_ne_zero fun hzero => toInt_ne_zero h ?_
  rw [← toInt_low32 hword, hzero, BitVec.toInt_zero]

/-! ## The halves of a product (R303, R304, R307, R308) -/

section Halves
variable {w : Nat} {x y : BitVec w}

/-- A signed product of `w` bits each fits `2 w` bits. -/
theorem toInt_signedHalves (hw : 0 < w) {p : BitVec (w + w)} (hp : p = BitVec.ofInt (w + w) (x.toInt * y.toInt)) :
    (p.extractLsb' w w ++ p.extractLsb' 0 w).toInt = x.toInt * y.toInt := by
  have hle : x.toInt * y.toInt ≤ 2 ^ (w * 2 - 2) := BitVec.toInt_mul_toInt_le
  have hge : -2 ^ (w * 2 - 2) ≤ x.toInt * y.toInt := BitVec.le_toInt_mul_toInt
  have hpow : (2 : Int) ^ (w + w - 1) = 2 ^ (w * 2 - 2) * 2 := by
    rw [← Int.pow_succ]
    congr 1
    omega
  have hpos : (0 : Int) < 2 ^ (w * 2 - 2) := Int.pow_pos (by decide)
  rw [BitVec.extractLsb'_append_extractLsb', hp]
  exact BitVec.toInt_ofInt_eq_self (by omega) (by omega) (by omega)

/-- An unsigned product of `w` bits each fits `2 w` bits. -/
theorem toNat_unsignedHalves {p : BitVec (w + w)} (hp : p = BitVec.ofNat (w + w) (x.toNat * y.toNat)) :
    (p.extractLsb' w w ++ p.extractLsb' 0 w).toNat = x.toNat * y.toNat := by
  have hlt : x.toNat * y.toNat < 2 ^ (w + w) := by
    rw [Nat.pow_add]
    exact Nat.mul_lt_mul'' x.isLt y.isLt
  rw [BitVec.extractLsb'_append_extractLsb', hp]
  exact Nat.mod_eq_of_lt hlt

end Halves

/-! ## Quotient and remainder (R300, R305, R306, R309, R310) -/

/-- `r` and `q` are remainder and quotient of the division that truncates toward zero. -/
abbrev SignedDivision (a b r q : Int) : Prop :=
  a = b * q + r ∧ r.natAbs < b.natAbs ∧ (r = 0 ∨ (0 < r ↔ 0 < a))

/-- `r` and `q` are remainder and quotient of natural numbers. -/
abbrev UnsignedDivision (a b r q : Nat) : Prop := a = b * q + r ∧ r < b

theorem signedDivision_tmod_tdiv (a : Int) {b : Int} (hb : b ≠ 0) : SignedDivision a b (a.tmod b) (a.tdiv b) := by
  refine ⟨(Int.mul_tdiv_add_tmod a b).symm, ?_, ?_⟩
  · rw [Int.natAbs_tmod]
    exact Nat.mod_lt _ (Int.natAbs_pos.2 hb)
  · have hsign := Int.sign_tmod a b
    by_cases hdvd : b ∣ a
    · exact .inl (Int.tmod_eq_zero_of_dvd hdvd)
    · rw [if_neg hdvd] at hsign
      exact .inr (by rw [← Int.sign_eq_one_iff_pos, hsign, Int.sign_eq_one_iff_pos])

theorem signedDivideOpen_eq_false {w : Nat} {a b : Int} :
    signedDivideOpen w a b = false ↔ b ≠ 0 ∧ ¬ (a = -2 ^ (w - 1) ∧ b = -1) := by
  simp [signedDivideOpen]

section Division
variable {w : Nat} {x y : BitVec w}

theorem toInt_ofInt_tmod (x y : BitVec w) :
    (BitVec.ofInt w (x.toInt.tmod y.toInt)).toInt = x.toInt.tmod y.toInt := by
  rw [← BitVec.toInt_srem, BitVec.ofInt_toInt]

/-- The quotient fits unless it is that of the least integer by -1. -/
theorem toInt_ofInt_tdiv (hw : 0 < w) (h : ¬ (x.toInt = -2 ^ (w - 1) ∧ y.toInt = -1)) :
    (BitVec.ofInt w (x.toInt.tdiv y.toInt)).toInt = x.toInt.tdiv y.toInt := by
  have hne : x ≠ BitVec.intMin w ∨ y ≠ -1#w := by
    by_contra hboth
    obtain ⟨rfl, rfl⟩ : x = BitVec.intMin w ∧ y = -1#w := by simpa using hboth
    exact h ⟨BitVec.toInt_intMin_of_pos hw, by rw [BitVec.neg_one_eq_allOnes, BitVec.toInt_allOnes, if_pos hw]⟩
  rw [← BitVec.toInt_sdiv_of_ne_or_ne x y hne, BitVec.ofInt_toInt]

/-- The remainder and quotient of `w` bits are those of the integers, where the quotient is defined. -/
theorem signedDivision_ofInt (hw : 0 < w) (h : signedDivideOpen w x.toInt y.toInt = false) :
    SignedDivision x.toInt y.toInt (BitVec.ofInt w (x.toInt.tmod y.toInt)).toInt
      (BitVec.ofInt w (x.toInt.tdiv y.toInt)).toInt := by
  obtain ⟨hzero, hfits⟩ := signedDivideOpen_eq_false.1 h
  rw [toInt_ofInt_tmod, toInt_ofInt_tdiv hw hfits]
  exact signedDivision_tmod_tdiv _ hzero

theorem unsignedDivision_ofNat (h : 0 < y.toNat) :
    UnsignedDivision x.toNat y.toNat (BitVec.ofNat w (x.toNat % y.toNat)).toNat
      (BitVec.ofNat w (x.toNat / y.toNat)).toNat := by
  rw [← BitVec.toNat_umod, ← BitVec.toNat_udiv, BitVec.ofNat_toNat, BitVec.ofNat_toNat, BitVec.setWidth_eq,
    BitVec.setWidth_eq, BitVec.toNat_umod, BitVec.toNat_udiv]
  exact ⟨(Nat.div_add_mod ..).symm, Nat.mod_lt _ h⟩

end Division

/-! ## Writing HI and LO (R302) -/

/-- With a guard up, a multiply or divide is refused, whatever its operands are. -/
theorem deliverHiLo_of_guarded {s : State} (h : 0 < s.hiGuard ∨ 0 < s.loGuard) (defined : Bool) (hi lo : Word) :
    s.deliverHiLo defined hi lo = .refuse .hiLoHazard :=
  if_pos h

/-- A multiply or divide with a defined result writes what `extend` makes of its two results; the results keep what
holds of them. -/
theorem issue_of_deliverHiLo_result {s : State} {t : Traits} {rule : State → Effect} {defined : Bool} {α : Type}
    {extend : α → Word} {hi lo : α} {Holds : α → α → Prop} (ht : PlainTraits t) (hadm : Admits s t)
    (hfree : s.unguarded = true) (hrule : rule s = s.deliverHiLo defined (extend hi) (extend lo))
    (hdefined : defined = true) (hholds : Holds hi lo) :
    ∃ t' hi lo, s.issue t rule = .next t' ∧ WritesHiLo s t' (extend hi) (extend lo) ∧ Holds hi lo := by
  subst hdefined
  obtain ⟨t', hnext, hwrites⟩ := issue_of_setHiLo ht hadm (hrule.trans (deliverHiLo_of_unguarded hfree ..))
  exact ⟨t', hi, lo, hnext, hwrites, hholds⟩

/-! ## The moves (R311 to R315) -/

section Moves
variable {s : State} {t : Traits} {rule : State → Effect}

/-- `HI` and `LO`, whether they are unread, and the general registers are all that a move writes. -/
theorem keeps_retire_move {t' : State} {gpr : Vector Word 32} {hi lo : Word} {fresh : Bool}
    (h : t' = s.retire t { s with gpr := gpr, hi := hi, lo := lo, hiloFresh := fresh } .none) :
    KeepsLink s t' ∧ KeepsCops s t' ∧ KeepsMemory s t' [] ∧ Advances s t' .none := by
  subst h
  exact ⟨keepsLink_retire ⟨rfl, rfl⟩, ⟨rfl, rfl, rfl, rfl, rfl, rfl⟩, fun _ _ => rfl, advances_retire rfl rfl rfl⟩

/-- MFHI and MFLO have no source among the general registers. -/
theorem admits_moveFrom (s : State) (readsHi readsLo : Bool) : Admits s { readsHi := readsHi, readsLo := readsLo } where
  level := of_decide_eq_true (supports_I s)
  slot h := by cases h
  usable z hz := by cases hz
  loaded := loadHazard_of_settled (settled_nil s) (List.nil_subset _) rfl

/-- MFHI and MFLO. -/
theorem issue_of_moveFrom {r : Reg} {v : Word} (hadm : Admits s t) (hrule : rule s = s.staleHiLo.deliver r v) :
    ∃ t', s.issue t rule = .next t' ∧ t'.x r = (if r = 0#5 then 0#64 else v) ∧ KeepsGprs s t' [r] ∧
      t'.hi = s.hi ∧ t'.lo = s.lo ∧ t'.hiloFresh = false ∧
      t'.hiGuard = (if t.readsHi then 2 else s.hiGuard - 1) ∧ t'.loGuard = (if t.readsLo then 2 else s.loGuard - 1) ∧
      KeepsLink s t' ∧ KeepsCops s t' ∧ KeepsMemory s t' [] ∧ Advances s t' .none := by
  refine ⟨_, issue_of_done hadm hrule, ?_, fun q hq => ?_, rfl, rfl, rfl, rfl, rfl, keeps_retire_move rfl⟩
  · by_cases hr : r = 0#5
    · simp [hr]
    · rw [retire_x, x_setX_same _ _ _ hr, if_neg hr]
  · exact x_setX_other _ _ _ _ fun h => hq (by simp [h])

end Moves

/-! ## The statements -/

/-- Settles O34: the two halves, put together, are the product, which fits. -/
theorem products : Obligations.Products := by
  intro s rs rt hfree
  unfold exec
  refine ⟨fun hsettled hrs hrt => ?word, fun hlevel => ?double⟩
  case word =>
    have hadm : Admits s { reads := [rs, rt] } := admits_reads hsettled (List.Subset.refl _)
    have hwords := areWords_of_isWordValue hrs hrt
    rw [← toInt_low32 hrs, ← toInt_low32 hrt, ← toNat_low32, ← toNat_low32]
    exact ⟨issue_of_deliverHiLo_result {} hadm hfree rfl hwords (toInt_signedHalves (by decide) rfl),
      issue_of_deliverHiLo_result {} hadm hfree rfl hwords (toNat_unsignedHalves rfl)⟩
  case double =>
    have hadm : Admits s { level := .III } := admits_noReads hlevel false
    exact ⟨issue_of_deliverHiLo_result (extend := id) {} hadm hfree rfl rfl (toInt_signedHalves (by decide) rfl),
      issue_of_deliverHiLo_result (extend := id) {} hadm hfree rfl rfl (toNat_unsignedHalves rfl)⟩

/-- Settles O35: quotient and remainder of the operands as integers fit, where the quotient is defined. -/
theorem quotients : Obligations.Quotients := by
  intro s rs rt hfree hzero
  unfold exec
  refine ⟨fun hsettled hrs hrt => ?word, fun hlevel => ⟨fun hfits => ?ddiv, ?ddivu⟩⟩
  case word =>
    have hadm : Admits s { reads := [rs, rt] } := admits_reads hsettled (List.Subset.refl _)
    have hwords := areWords_of_isWordValue hrs hrt
    have hsigned := toInt_ne_zero hzero
    have hunsigned := toNat_low32_pos hrt hzero
    rw [← toInt_low32 hrs, ← toInt_low32 hrt, ← toNat_low32, ← toNat_low32]
    rw [← toInt_low32 hrt] at hsigned
    refine ⟨fun hfits => ?div, ?divu⟩
    case div =>
      have hdefined := (signedDivideOpen_eq_false (w := 32)).2 ⟨hsigned, hfits⟩
      exact issue_of_deliverHiLo_result {} hadm hfree rfl (by rw [hwords, hdefined]; rfl)
        (signedDivision_ofInt (by decide) hdefined)
    case divu =>
      exact issue_of_deliverHiLo_result {} hadm hfree rfl (by rw [hwords, bne_iff_ne.2 hunsigned.ne']; rfl)
        (unsignedDivision_ofNat hunsigned)
  case ddiv =>
    have hdefined := (signedDivideOpen_eq_false (w := 64)).2 ⟨toInt_ne_zero hzero, hfits⟩
    exact issue_of_deliverHiLo_result (extend := id) {} (admits_noReads hlevel false) hfree rfl
      (congrArg not hdefined) (signedDivision_ofInt (by decide) hdefined)
  case ddivu =>
    have hpos := BitVec.toNat_pos_of_ne_zero hzero
    exact issue_of_deliverHiLo_result (extend := id) {} (admits_noReads hlevel false) hfree rfl
      (bne_iff_ne.2 hpos.ne') (unsignedDivision_ofNat hpos)

/-- Settles O36: with both guards down a divide completes whatever its operands are, so these ones too. -/
theorem openDivisionsComplete : Obligations.OpenDivisionsComplete := by
  intro s rs rt hsettled hfree
  have hword : Admits s { reads := [rs, rt] } := admits_reads hsettled (List.Subset.refl _)
  have hdouble (hlevel : s.supports .III = true) : Admits s { level := .III } := admits_noReads hlevel false
  unfold exec
  refine ⟨fun _ => ⟨?div, ?divu, fun hlevel => ⟨?ddiv, ?ddivu⟩⟩, fun _ _ => ?overflow, fun _ _ hlevel => ?longOverflow⟩
  case div | divu | overflow => exact issue_of_deliverHiLo {} hword hfree rfl
  case ddiv | ddivu | longOverflow => exact issue_of_deliverHiLo {} (hdouble hlevel) hfree rfl

/-- Settles O37: MTHI and MTLO pass the check of the guard of their own register. -/
theorem hiLoMoves : Obligations.HiLoMoves := by
  intro s r hsettled
  have hreads : Admits s { reads := [r] } := admits_reads hsettled (List.Subset.refl _)
  unfold exec
  refine ⟨?mfhi, ?mflo, fun hguard => ?mthi, fun hguard => ?mtlo⟩
  case mfhi | mflo => exact issue_of_moveFrom (admits_moveFrom ..) rfl
  case mthi | mtlo =>
    exact ⟨_, issue_of_done hreads (if_neg (by omega)), rfl, fun hstale => by simp [hstale], rfl, fun _ _ => rfl,
      ⟨rfl, rfl⟩, keeps_retire_move rfl⟩

/-- Settles O38: the rule of each writer refuses when a guard it would write is up. -/
theorem hiLoHazardRefused : Obligations.HiLoHazardRefused := by
  intro s rs rt hsettled
  have hrs : Admits s { reads := [rs] } := admits_reads hsettled (by simp)
  refine ⟨fun hguard i hi hlevel => ?pair, fun hguard => ?mthi, fun hguard => ?mtlo⟩
  case pair =>
    have hword : Admits s { reads := [rs, rt] } := admits_reads hsettled (List.Subset.refl _)
    rcases hi with rfl | rfl | rfl | rfl | rfl | rfl | rfl | rfl <;> unfold exec
    -- The word forms are held to the load delay slot; the doubleword forms are of MIPS III, which has none.
    case _ | _ | _ | _ => exact issue_of_refuse hword (deliverHiLo_of_guarded hguard ..)
    case _ | _ | _ | _ => exact issue_of_refuse (admits_noReads hlevel false) (deliverHiLo_of_guarded hguard ..)
  case mthi | mtlo =>
    unfold exec
    exact issue_of_refuse hrs (if_pos hguard)

end Sys2Proof.Machine
end

section
/-! SUPPORT. The jumps and branches (45_jump_branch.md): when they are admitted and when refused, targets and tests as
integers, and what a jump or branch leaves that links or does not. -/

namespace Sys2Proof.Machine

/-! ## Jumps and branches where they stand (R334) -/

/-- The traits of a jump or branch. -/
def branchTraits (level : Level) (reads : List Reg) : Traits where
  level := level
  branch := true
  reads := reads

/-- Of the instructions of the level, a jump or branch in an executed slot is refused first. -/
theorem issue_of_inSlot {s : State} {t : Traits} (hlevel : s.supports t.level = true) (hbranch : t.branch = true)
    (hslot : s.delay ≠ .none) (rule : State → Effect) : s.issue t rule = .refused .branchInDelaySlot := by
  have hrank : ¬ s.params.archLevel.rank < t.level.rank := Nat.not_lt_of_le (of_decide_eq_true hlevel)
  exact (if_neg hrank).trans (if_pos ⟨hbranch, hslot⟩)

/-- A jump or branch outside a slot that reads settled registers. -/
theorem admits_branch {s : State} {level : Level} {rs reads : List Reg} (hlevel : s.supports level = true)
    (hslot : s.delay = .none) (hsettled : s.settled rs = true) (hreads : reads ⊆ rs) :
    Admits s (branchTraits level reads) where
  level := of_decide_eq_true hlevel
  slot _ := hslot
  usable z hz := by cases hz
  loaded := loadHazard_of_settled hsettled hreads rfl

/-! ## Targets (R332, R336) -/

/-- The offset counts words from the delay slot. -/
theorem branchTarget_eq (pc : Word) (offset : BitVec 16) :
    branchTarget pc offset = pc + 4#64 + BitVec.ofInt 64 (4 * offset.toInt) := by
  have hbytes : (offset ++ 0#2).toInt = 4 * offset.toInt := by
    rw [BitVec.toInt_append]
    simp
  exact congrArg (fun n => pc + 4#64 + BitVec.ofInt 64 n) hbytes

/-- The high 36 bits are those of the delay slot, the low 28 are the index of a word. -/
theorem toNat_jumpTarget (pc : Word) (index : BitVec 26) :
    (jumpTarget pc index).toNat = (pc + 4#64).toNat / 2 ^ 28 * 2 ^ 28 + 4 * index.toNat := by
  have hslot : (pc + 4#64).toNat < 2 ^ 64 := (pc + 4#64).isLt
  have hindex : index.toNat < 2 ^ 26 := index.isLt
  have hregion : ((pc + 4#64).extractLsb' 28 36).toNat = (pc + 4#64).toNat / 2 ^ 28 := by
    rw [BitVec.extractLsb'_toNat, Nat.shiftRight_eq_div_pow, Nat.mod_eq_of_lt (by omega)]
  rw [jumpTarget, BitVec.toNat_cast, BitVec.toNat_append, BitVec.toNat_append, hregion, BitVec.toNat_ofNat,
    ← Nat.shiftLeft_add_eq_or_of_lt hindex, ← Nat.shiftLeft_add_eq_or_of_lt (by decide), Nat.shiftLeft_eq,
    Nat.shiftLeft_eq]
  omega

/-! ## Tests (R331) -/

/-- The sign is bit 63. -/
theorem negative_iff {v : Word} : negative v = true ↔ v.toInt < 0 := by
  have hsign : negative v = decide (v.toInt < 0) :=
    (BitVec.msb_eq_getLsbD_last v).symm.trans BitVec.msb_eq_toInt
  rw [hsign, decide_eq_true_iff]

theorem not_negative_iff {v : Word} : (!negative v) = true ↔ 0 ≤ v.toInt := by
  rw [Bool.not_eq_true', ← Bool.not_eq_true, negative_iff, Int.not_lt]

theorem notPositive_iff {v : Word} : notPositive v = true ↔ v.toInt ≤ 0 := by
  rw [notPositive, Bool.or_eq_true, negative_iff, beq_iff_eq, ← BitVec.toInt_inj, BitVec.toInt_zero, Int.le_iff_lt_or_eq]

theorem not_notPositive_iff {v : Word} : (!notPositive v) = true ↔ 0 < v.toInt := by
  rw [Bool.not_eq_true', ← Bool.not_eq_true, notPositive_iff, Int.not_le]

/-! ## The delay value (R333) -/

section DelayValue
variable {test : Bool} {c : Prop} [Decidable c]

theorem branchDelay_eq (h : test = true ↔ c) (target : Word) :
    branchDelay test target = if c then .taken target else .notTaken :=
  if_congr h rfl rfl

theorem likelyDelay_eq (h : test = true ↔ c) (target : Word) :
    likelyDelay test target = if c then .taken target else .nullify :=
  if_congr h rfl rfl

end DelayValue

theorem linkBranch_of_ne {rs : Reg} (h : rs ≠ 31#5) (s : State) (d : Delay) :
    s.linkBranch rs d = .done (s.setX 31#5 (s.pc + 8#64)) d :=
  if_neg h

/-- A link branch may not test the register that it writes (R362). -/
theorem linkBranch_31 (s : State) (d : Delay) : s.linkBranch 31#5 d = .refuse .linkSourceIs31 := rfl

/-! ## What a jump or branch leaves -/

section Issue
variable {s : State} {level : Level} {reads : List Reg} {rule : State → Effect} {d d' : Delay}
  (hadm : Admits s (branchTraits level reads))
include hadm

/-- A jump or branch that does not link leaves its delay value, and writes nothing. -/
theorem issue_of_branch (hrule : rule s = .done s d) (hd : d = d') :
    ∃ t, s.issue (branchTraits level reads) rule = .next t ∧ WritesNothing s t d' := by
  subst hd
  refine ⟨_, issue_of_done hadm hrule, ?_⟩
  exact
    { gprs := fun _ _ => rfl
      hilo := ⟨rfl, rfl, rfl⟩
      guards := ⟨rfl, rfl⟩
      link := keepsLink_retire ⟨rfl, rfl⟩
      cops := ⟨rfl, rfl, rfl, rfl, rfl, rfl⟩
      memory := fun _ _ => rfl
      advances := advances_retire rfl rfl rfl }

/-- A jump or branch that links leaves its delay value, and writes the link register. -/
theorem issue_of_link {r : Reg} {v : Word} (hrule : rule s = .done (s.setX r v) d) (hd : d = d') :
    ∃ t, s.issue (branchTraits level reads) rule = .next t ∧ WritesGpr s t r v d' := by
  subst hd
  refine ⟨_, issue_of_done hadm hrule, ?_⟩
  exact
    { result := by
        by_cases hr : r = 0#5
        · simp [hr]
        · rw [retire_x, x_setX_same _ _ _ hr, if_neg hr]
      gprs := fun q hq => x_setX_other _ _ _ _ fun h => hq (by simp [h])
      hilo := ⟨rfl, rfl, rfl⟩
      guards := ⟨rfl, rfl⟩
      link := keepsLink_retire ⟨rfl, rfl⟩
      cops := ⟨rfl, rfl, rfl, rfl, rfl, rfl⟩
      memory := fun _ _ => rfl
      advances := advances_retire rfl rfl rfl }

end Issue

/-! ## The statements -/

/-- Settles O12: every jump and branch is issued as one, and the check of the slot follows that of the level. -/
theorem branchInDelaySlotRefused : Obligations.BranchInDelaySlotRefused := by
  intro i s hbranch hlevel hslot
  obtain ⟨t, rule, hexec, htraits, -⟩ := exec_eq_issue i s
  have hexecuted : s.delay ≠ .none := by
    rcases hslot with ⟨target, h⟩ | h <;> simp [h]
  rw [← htraits.level] at hlevel
  rw [hexec, issue_of_inSlot hlevel (htraits.branch.trans hbranch) hexecuted]

/-- Settles O55: each test of the model is that of the statement; the words are those that the encoder makes. -/
theorem conditionalBranches : Obligations.ConditionalBranches := by
  intro s rs rt offset target hslot hsettled htarget
  rw [← branchTarget_eq] at htarget
  subst htarget
  refine ⟨fun i c _ hi => ?plain, fun i c _ hlevel hi => ?likely, fun hlevel i hi => ?reserved, decode_of_encode rfl,
    decode_of_encode rfl, decode_of_encode rfl, decode_of_encode rfl, decode_of_encode rfl, decode_of_encode rfl,
    decode_of_encode rfl, decode_of_encode rfl, decode_of_encode rfl, decode_of_encode rfl, decode_of_encode rfl,
    decode_of_encode rfl⟩
  case plain =>
    have hboth : Admits s (branchTraits .I [rs, rt]) :=
      admits_branch (supports_I s) hslot hsettled (List.Subset.refl _)
    have hone : Admits s (branchTraits .I [rs]) := admits_branch (supports_I s) hslot hsettled (by simp)
    rcases hi with ⟨rfl, hc⟩ | ⟨rfl, hc⟩ | ⟨rfl, hc⟩ | ⟨rfl, hc⟩ | ⟨rfl, hc⟩ | ⟨rfl, hc⟩ <;> unfold exec
    · exact issue_of_branch hboth rfl (branchDelay_eq (beq_iff_eq.trans hc.symm) _)
    · exact issue_of_branch hboth rfl (branchDelay_eq (bne_iff_ne.trans hc.symm) _)
    · exact issue_of_branch hone rfl (branchDelay_eq (notPositive_iff.trans hc.symm) _)
    · exact issue_of_branch hone rfl (branchDelay_eq (not_notPositive_iff.trans hc.symm) _)
    · exact issue_of_branch hone rfl (branchDelay_eq (negative_iff.trans hc.symm) _)
    · exact issue_of_branch hone rfl (branchDelay_eq (not_negative_iff.trans hc.symm) _)
  case likely =>
    have hnone : Admits s (branchTraits .II []) := admits_branch hlevel hslot hsettled (List.nil_subset _)
    rcases hi with ⟨rfl, hc⟩ | ⟨rfl, hc⟩ | ⟨rfl, hc⟩ | ⟨rfl, hc⟩ | ⟨rfl, hc⟩ | ⟨rfl, hc⟩ <;> unfold exec
    · exact issue_of_branch hnone rfl (likelyDelay_eq (beq_iff_eq.trans hc.symm) _)
    · exact issue_of_branch hnone rfl (likelyDelay_eq (bne_iff_ne.trans hc.symm) _)
    · exact issue_of_branch hnone rfl (likelyDelay_eq (notPositive_iff.trans hc.symm) _)
    · exact issue_of_branch hnone rfl (likelyDelay_eq (not_notPositive_iff.trans hc.symm) _)
    · exact issue_of_branch hnone rfl (likelyDelay_eq (negative_iff.trans hc.symm) _)
    · exact issue_of_branch hnone rfl (likelyDelay_eq (not_negative_iff.trans hc.symm) _)
  case reserved =>
    have hilevel : i.level = .II := by rcases hi with rfl | rfl | rfl | rfl | rfl | rfl <;> rfl
    exact (levelGate i s).1 (hilevel ▸ hlevel)

/-- Settles O56: a link branch writes GPR 31 before its test decides the delay value, unless it tests GPR 31. -/
theorem linkBranches : Obligations.LinkBranches := by
  intro s rs offset target hslot hsettled htarget
  rw [← branchTarget_eq] at htarget
  subst htarget
  have hplain : Admits s (branchTraits .I [rs]) :=
    admits_branch (supports_I s) hslot hsettled (List.Subset.refl _)
  have hlikely (hlevel : s.supports .II = true) : Admits s (branchTraits .II []) :=
    admits_branch hlevel hslot hsettled (List.nil_subset _)
  unfold exec
  refine ⟨fun hne => ⟨?bltzal, ?bgezal, fun hlevel => ?bltzall, fun hlevel => ?bgezall⟩, fun h31 => ?refused⟩
  case bltzal => exact issue_of_link hplain (linkBranch_of_ne hne ..) (branchDelay_eq negative_iff _)
  case bgezal => exact issue_of_link hplain (linkBranch_of_ne hne ..) (branchDelay_eq not_negative_iff _)
  case bltzall => exact issue_of_link (hlikely hlevel) (linkBranch_of_ne hne ..) (likelyDelay_eq negative_iff _)
  case bgezall => exact issue_of_link (hlikely hlevel) (linkBranch_of_ne hne ..) (likelyDelay_eq not_negative_iff _)
  case refused =>
    subst h31
    exact ⟨issue_of_refuse hplain (linkBranch_31 ..), issue_of_refuse hplain (linkBranch_31 ..), fun hlevel =>
      ⟨issue_of_refuse (hlikely hlevel) (linkBranch_31 ..), issue_of_refuse (hlikely hlevel) (linkBranch_31 ..)⟩⟩

/-- Settles O57: as a number, the target in the region of the delay slot is that of the model. -/
theorem jumps : Obligations.Jumps := by
  intro s rs rd index target hslot hsettled htarget
  rw [← toNat_jumpTarget, BitVec.toNat_inj] at htarget
  subst htarget
  have hnone : Admits s (branchTraits .I []) := admits_branch (supports_I s) hslot hsettled (List.nil_subset _)
  have hone : Admits s (branchTraits .I [rs]) :=
    admits_branch (supports_I s) hslot hsettled (List.Subset.refl _)
  unfold exec
  refine ⟨?j, ?jal, ?jr, fun hne => ?jalr, fun heq => ?refused⟩
  case j => exact issue_of_branch hnone rfl rfl
  case jal => exact issue_of_link hnone rfl rfl
  case jr => exact issue_of_branch hone rfl rfl
  case jalr => exact issue_of_link hone (if_neg hne) rfl
  case refused => exact issue_of_refuse hone (if_pos heq)

end Sys2Proof.Machine
end

section
/-! SUPPORT. The exception instructions, SYNC, the prefetches and the conditional moves (46_misc.md, 47_coprocessor.md
R426): the tests of the trap instructions, and what is left by an instruction that traps, moves or only advances. -/

namespace Sys2Proof.Machine

/-! ## Tests of the trap instructions (46_misc.md R386 to R397) -/

section Tests
variable {a b : Word}

theorem lessSigned_iff : lessSigned a b = true ↔ a.toInt < b.toInt := decide_eq_true_iff

theorem not_lessSigned_iff : (!lessSigned a b) = true ↔ b.toInt ≤ a.toInt := by
  rw [Bool.not_eq_true', ← Bool.not_eq_true, lessSigned_iff, Int.not_lt]

theorem lessUnsigned_iff : lessUnsigned a b = true ↔ a.toNat < b.toNat := decide_eq_true_iff

theorem not_lessUnsigned_iff : (!lessUnsigned a b) = true ↔ b.toNat ≤ a.toNat := by
  rw [Bool.not_eq_true', ← Bool.not_eq_true, lessUnsigned_iff, Nat.not_lt]

theorem beq_iff_toInt_eq : (a == b) = true ↔ a.toInt = b.toInt := beq_iff_eq.trans BitVec.toInt_inj.symm

theorem bne_iff_toInt_ne : (a != b) = true ↔ a.toInt ≠ b.toInt := bne_iff_ne.trans BitVec.toInt_inj.symm.not

end Tests

/-! ## Completing without a write (10_state.md R32) -/

/-- To write `x[0]` is to write nothing. -/
theorem deliver_zero (s : State) (v : Word) : s.deliver 0#5 v = s.complete := rfl

theorem WritesGpr.writesNothing {s t : State} {v : Word} {d : Delay} (h : WritesGpr s t 0#5 v d) :
    WritesNothing s t d :=
  { h with
    gprs := fun r _ => by
      by_cases hr : r = 0#5
      · subst hr
        exact h.result
      · exact h.gprs r (by simpa using hr) }

/-! ## What an instruction leaves that raises, advances, traps or moves -/

section Issue
variable {s : State} {t : Traits} {rule : State → Effect}

theorem issue_raises {e : Exception} (hadm : Admits s t) (hrule : rule s = .raise e) :
    ∃ t', s.issue t rule = .next t' ∧ Raises s t' e :=
  ⟨_, issue_of_raise hadm hrule, raises_takeException s e⟩

variable (ht : PlainTraits t) (hadm : Admits s t) {c : Prop} [Decidable c]
include ht hadm

/-- An instruction that only completes writes nothing, as one would that delivers to `x[0]`. -/
theorem issue_of_complete (hrule : rule s = s.complete) :
    ∃ t', s.issue t rule = .next t' ∧ WritesNothing s t' .none := by
  obtain ⟨t', hnext, hwrites⟩ := issue_of_deliver ht hadm (hrule.trans (deliver_zero s 0#64).symm)
  exact ⟨t', hnext, hwrites.writesNothing⟩

/-- A trap instruction raises Trap when its test holds, and else writes nothing (46_misc.md R385). -/
theorem issue_of_trapIf {test : Bool} (htest : test = true ↔ c) (hrule : rule s = s.trapIf test) :
    ∃ t', s.issue t rule = .next t' ∧ if c then Raises s t' .trap else WritesNothing s t' .none := by
  by_cases hc : c
  · simp only [if_pos hc]
    exact issue_raises hadm (hrule.trans (if_pos (htest.2 hc)))
  · simp only [if_neg hc]
    exact issue_of_complete ht hadm (hrule.trans (if_neg (mt htest.1 hc)))

/-- A conditional move writes the register when its condition holds, and else nothing. -/
theorem issue_of_move {rd : Reg} {v : Word} (hrule : rule s = if c then s.deliver rd v else s.complete) :
    ∃ t', s.issue t rule = .next t' ∧ if c then WritesGpr s t' rd v .none else WritesNothing s t' .none := by
  by_cases hc : c
  · simp only [if_pos hc] at hrule ⊢
    exact issue_of_deliver ht hadm hrule
  · simp only [if_neg hc] at hrule ⊢
    exact issue_of_complete ht hadm hrule

end Issue

/-! ## PREFX and MOVCI once unit 1 is usable (R411, R426) -/

section UnitOne
variable {s : State} (hlevel : s.supports .IV = true) (husable : unitUsable s.params 1 = true)
include hlevel husable

theorem exec_prefx (base index : Reg) (hint : BitVec 5) :
    exec (.prefx base index hint) s = s.issue (passedTraits true) fun _ => s.complete :=
  exec_eq_passed (rule := State.complete) rfl (admits_indexed hlevel husable) rfl

theorem admits_movci : Admits s { level := .IV, unit := some 1 } where
  level := of_decide_eq_true hlevel
  slot h := by cases h
  usable z hz := by cases hz; exact husable
  loaded := loadHazard_of_settled (settled_nil s) (List.nil_subset _) rfl

/-- With a launch that has it, MOVCI is a move under the condition code (note 26). -/
theorem exec_movci (hmoves : s.params.fpuMoves = true) (rs : Reg) (cc : BitVec 3) (tf : BitVec 1) (rd : Reg) :
    exec (.movci rs cc tf rd) s = s.issue (passedTraits false) fun _ =>
      if s.fcc cc = (tf == 1#1) then s.deliver rd (s.x rs) else s.complete :=
  exec_eq_passed (by rfl) (admits_movci hlevel husable) (if_neg (ne_true_of_eq_false (congrArg not hmoves)))

end UnitOne

/-! ## The statements -/

/-- Settles O58: each test of the model is that of the statement, an immediate being its sign extension; the words are
those that the encoder makes. -/
theorem exceptionInstructions : Obligations.ExceptionInstructions := by
  intro s rs rt code20 code immediate
  have hplain : Admits s {} := admits_reads (settled_nil s) (List.nil_subset _)
  refine ⟨?syscall, ?brk, fun hlevel i c _ hi => ?trap, fun hlevel i hi => ?reserved, decode_of_encode rfl,
    decode_of_encode rfl, decode_of_encode rfl, decode_of_encode rfl, decode_of_encode rfl, decode_of_encode rfl,
    decode_of_encode rfl, decode_of_encode rfl, decode_of_encode rfl, decode_of_encode rfl, decode_of_encode rfl,
    decode_of_encode rfl⟩
  case syscall | brk =>
    unfold exec
    exact issue_raises hplain rfl
  case trap =>
    have hadm : Admits s { level := .II } := admits_noReads hlevel false
    rw [← toInt_sext64_immediate] at hi
    rcases hi with ⟨rfl, hc⟩ | ⟨rfl, hc⟩ | ⟨rfl, hc⟩ | ⟨rfl, hc⟩ | ⟨rfl, hc⟩ | ⟨rfl, hc⟩ | ⟨rfl, hc⟩ | ⟨rfl, hc⟩ |
      ⟨rfl, hc⟩ | ⟨rfl, hc⟩ | ⟨rfl, hc⟩ | ⟨rfl, hc⟩ <;> unfold exec
    · exact issue_of_trapIf {} hadm (not_lessSigned_iff.trans hc.symm) rfl
    · exact issue_of_trapIf {} hadm (not_lessUnsigned_iff.trans hc.symm) rfl
    · exact issue_of_trapIf {} hadm (lessSigned_iff.trans hc.symm) rfl
    · exact issue_of_trapIf {} hadm (lessUnsigned_iff.trans hc.symm) rfl
    · exact issue_of_trapIf {} hadm (beq_iff_eq.trans hc.symm) rfl
    · exact issue_of_trapIf {} hadm (bne_iff_ne.trans hc.symm) rfl
    · exact issue_of_trapIf {} hadm (not_lessSigned_iff.trans hc.symm) rfl
    · exact issue_of_trapIf {} hadm (not_lessUnsigned_iff.trans hc.symm) rfl
    · exact issue_of_trapIf {} hadm (lessSigned_iff.trans hc.symm) rfl
    · exact issue_of_trapIf {} hadm (lessUnsigned_iff.trans hc.symm) rfl
    · exact issue_of_trapIf {} hadm (beq_iff_toInt_eq.trans hc.symm) rfl
    · exact issue_of_trapIf {} hadm (bne_iff_toInt_ne.trans hc.symm) rfl
  case reserved =>
    have hilevel : i.level = .II := by
      rcases hi with rfl | rfl | rfl | rfl | rfl | rfl | rfl | rfl | rfl | rfl | rfl | rfl <;> rfl
    exact (levelGate i s).1 (hilevel ▸ hlevel)

/-- Settles O59: the rules of the prefetches are to complete, and so is that of SYNC with `stype` 0. -/
theorem syncAndPrefetch : Obligations.SyncAndPrefetch := by
  intro s base index stype hint offset
  refine ⟨fun hlevel hstype => ?sync, fun hlevel hstype => ?refused, fun hlevel => ?pref,
    fun hlevel husable => ?prefx⟩
  case sync =>
    unfold exec
    exact issue_of_complete {} (admits_noReads hlevel false) (if_pos hstype)
  case refused =>
    unfold exec
    exact issue_of_refuse (admits_noReads hlevel false) (if_neg hstype)
  case pref =>
    unfold exec
    exact issue_of_complete {} (admits_noReads hlevel true) rfl
  case prefx =>
    rw [exec_prefx hlevel husable]
    exact issue_of_complete {} (admits_passed s true) rfl

/-- Settles O60: the three are moves that differ in their condition; the rule of MOVCI refuses first, unless the launch
has it. -/
theorem conditionalMoves : Obligations.ConditionalMoves := by
  intro s rs rt rd cc tf hlevel
  have hadm : Admits s { level := .IV } := admits_noReads hlevel false
  refine ⟨?movn, ?movz, fun husable hmoves => ?refused, fun husable hmoves => ?movci⟩
  case movn =>
    unfold exec
    obtain ⟨t, hnext, hwrites⟩ := issue_of_move {} hadm
      (rule := fun s => if s.x rt ≠ 0#64 then s.deliver rd (s.x rs) else s.complete) rfl
    exact ⟨t, hnext, by rwa [ite_not] at hwrites⟩
  case movz =>
    unfold exec
    exact issue_of_move {} hadm rfl
  case refused =>
    unfold exec
    exact issue_of_refuse (admits_movci hlevel husable) (if_pos (congrArg not hmoves))
  case movci =>
    rw [exec_movci hlevel husable hmoves]
    exact issue_of_move {} (admits_passed s false) rfl

end Sys2Proof.Machine
end

section
/-! SUPPORT. The coprocessor units (47_coprocessor.md R421, R422): the usable check, which comes before the rule of
every instruction that addresses a unit, and the operations, whose rules do nothing else. -/

namespace Sys2Proof.Machine

/-- No check of a delay slot stands between those of the level and of the unit: no jump or branch addresses a unit. -/
theorem not_isBranch_of_unitOf {i : Instr} {z : Fin 4} (hunit : unitOf i = some z) : isBranch i = false := by
  cases i with
  | j | jal | jr | jalr | beq | bne | blez | bgtz | beql | bnel | blezl | bgtzl | bltz | bgez | bltzl | bgezl
  | bltzal | bgezal | bltzall | bgezall => cases hunit
  | _ => rfl

/-- Settles O13: the instruction is issued with its unit, which is checked as soon as the level is. -/
theorem unusableUnitRaises : Obligations.UnusableUnitRaises := by
  intro i s z hunit hlevel husable
  obtain ⟨t, rule, hexec, htraits, -⟩ := exec_eq_issue i s
  have hslot : t.branch = true → s.delay = .none := fun hbranch => by
    rw [htraits.branch, not_isBranch_of_unitOf hunit] at hbranch
    cases hbranch
  rw [← htraits.level] at hlevel
  have hissue := issue_of_unusable hlevel hslot (htraits.unit.trans hunit) husable rule
  exact ⟨_, hexec.trans hissue, raises_takeException s _⟩

/-- The operation of a usable unit is admitted: it is of MIPS I and reads no general register. -/
theorem admits_operation {s : State} {z : Fin 4} (husable : unitUsable s.params z = true) :
    Admits s { unit := some z } where
  level := of_decide_eq_true (supports_I s)
  slot h := by cases h
  usable z' hz' := by cases hz'; exact husable
  loaded := loadHazard_of_settled (settled_nil s) (List.nil_subset _) rfl

/-- Settles O14: each of the three is admitted when its unit is usable, and its rule refuses whatever the fields. -/
theorem coprocessorOperationsRefused : Obligations.CoprocessorOperationsRefused := by
  intro s co f
  unfold exec
  refine ⟨fun husable => ?cop0, fun husable => ?cop1, fun husable => ?cop2⟩
  case cop0 => exact issue_of_refuse (admits_operation husable) rfl
  case cop1 => exact issue_of_refuse (admits_operation husable) rfl
  case cop2 => exact issue_of_refuse (admits_operation husable) rfl

end Sys2Proof.Machine
end

section
/-! SUPPORT. The exceptions of a fetch in their order (60_exceptions.md R443), and what a run that has ended with a Trap
outcome can do (R460). -/

namespace Sys2Proof.Machine

/-! ## Fetch (60_exceptions.md R443, 20_memory.md R79, R110) -/

/-- A running machine fetches first. -/
theorem step_eq_fetch {s : State} (h : Running s) : step s = s.fetch fun w => s.runDecoded (decode w) := by
  rw [step_running h.trap, environment_of_nil h.env, cycle_of_executed h.delay]

section Fetch
variable {s : State} {pa : Nat} {type : AccessType} {next : Word32 → Host.Outcome State Fault Refusal}

theorem fetch_of_misaligned (hal : s.pc.toNat % 4 ≠ 0) :
    s.fetch next = .next (s.takeException (.addressError .fetch s.pc)) :=
  if_pos hal

theorem fetch_of_untranslated {e : Exception} (hal : s.pc.toNat % 4 = 0)
    (htr : translate s.params .fetch s.pc = .error e) : s.fetch next = .next (s.takeException e) := by
  simp [State.fetch, hal, htr]

theorem fetch_of_busError (hal : s.pc.toNat % 4 = 0) (htr : translate s.params .fetch s.pc = .ok (pa, type))
    (hbus : busErrorAt s.params .fetch pa = true) : s.fetch next = .next (s.takeException (.busError .fetch)) := by
  simp [State.fetch, hal, htr, hbus]

theorem fetch_of_stored (hal : s.pc.toNat % 4 = 0) (htr : translate s.params .fetch s.pc = .ok (pa, type))
    (hbus : busErrorAt s.params .fetch pa = false) (hst : (fetchCells pa).any (History.stored s.history) = true) :
    s.fetch next = .refused .fetchOfStoredByte := by
  simp [State.fetch, hal, htr, hbus, hst]

end Fetch

/-- Settles O8: the fetch checks alignment, translation, the bus and the record of stores in this order. -/
theorem fetchExceptions : Obligations.FetchExceptions := by
  intro s hr
  rw [step_eq_fetch hr]
  refine ⟨fun hal => ?misaligned, fun hal e htr => ?untranslated,
    fun hal pa type htr => ⟨fun hbus => ?busError, fun hbus hst => ?stored⟩⟩
  case misaligned => exact ⟨_, fetch_of_misaligned hal, raises_takeException s _⟩
  case untranslated => exact ⟨_, fetch_of_untranslated hal htr, raises_takeException s e⟩
  case busError => exact ⟨_, fetch_of_busError hal htr hbus, raises_takeException s _⟩
  case stored => exact fetch_of_stored hal htr hbus (List.any_eq_true.2 hst)

/-! ## An ended run (60_exceptions.md R460, R463) -/

/-- An ended run stops when the environment does nothing. -/
theorem step_of_unresumed {s : State} {r : TrapRecord} (htrap : s.trap = some r) (henv : s.env = []) :
    step s = .fault (.trapOutcome r) := by
  rw [step_ended htrap, State.ended, henv]

/-- An ended run is resumed with the rest of the queue. -/
theorem step_of_resumed {s : State} {r : TrapRecord} {pc : Word} {changes : List Alteration} {rest : List EnvEvent}
    (htrap : s.trap = some r) (henv : s.env = .resume pc changes :: rest) :
    step s = .next (State.resume { s with env := rest } pc changes) := by
  have hsome : s.trap.isSome = true := by rw [htrap]; rfl
  rw [step_ended htrap, State.ended, henv]
  exact congrArg Host.Outcome.next ((environment_of_cons henv).trans (if_pos hsome))

/-- What the resumption fixes itself is no part that a change names. -/
theorem holds_resume_iff (s : State) (pc : Word) (changes : List Alteration) (c : Alteration) :
    c.Holds (s.resume pc changes) ↔ c.Holds (State.alterAll { s with llbit := false } changes) := by
  cases c <;> rfl

section Resume
variable {s : State} {changes : List Alteration} (hm : Memory.wf s.mem = true) (hh : Assoc.rising s.history = true)
include hm hh

/-- The last change of a part holds after the resumption. -/
theorem holds_resume_of_last (pc : Word) {c : Alteration} {before later : List Alteration}
    (hl : ∀ d ∈ later, c.samePart s.params d = false) : c.Holds (s.resume pc (before ++ c :: later)) :=
  (holds_resume_iff ..).2 (holds_alterAll (s := { s with llbit := false }) hm hh c before later hl)

/-- The changes of one part of the state are the values of a family; a part that no change is of keeps its value. -/
theorem holds_resume_of_unaltered {α : Type} (part : α → Alteration) {v : α} (hnone : ∀ w, part w ∉ changes)
    (hv : (part v).Holds s) (pc : Word)
    (hpart : ∀ d, (part v).samePart s.params d = true → ∃ w, d = part w := by
      intro d hd; cases d <;> simp_all [Alteration.samePart]) :
    (part v).Holds (s.resume pc changes) := by
  have hother : ∀ d ∈ changes, (part v).samePart s.params d = false := fun d hd =>
    Bool.eq_false_iff.2 fun hsame => by
      obtain ⟨w, rfl⟩ := hpart d hsame
      exact hnone w hd
  have hcleared : (part v).Holds { s with llbit := false } := by cases h : part v <;> exact h ▸ hv
  exact (holds_resume_iff ..).2 (holds_alterAll_of_other (s := { s with llbit := false }) hm hh hcleared hother)

/-- A general register that no change names keeps its value; register 0 does in any case. -/
theorem x_resume_of_unaltered {r : Reg} (hnone : ∀ v, .gpr r v ∉ changes) (pc : Word) :
    (s.resume pc changes).x r = s.x r := by
  by_cases hr : r = 0#5
  · rw [hr, x_zero, x_zero]
  · have hkept := holds_resume_of_unaltered hm hh (.gpr r) (v := s.x r) hnone (if_neg hr).symm pc
    exact hkept.trans (if_neg hr)

/-- A resumption leaves every part that its changes do not name. -/
theorem keepsUnaltered_resume (pc : Word) : KeepsUnaltered s (s.resume pc changes) changes where
  gprs _ h := x_resume_of_unaltered hm hh h pc
  hi h := holds_resume_of_unaltered hm hh .hi h rfl pc
  lo h := holds_resume_of_unaltered hm hh .lo h rfl pc
  hiGuard := hiGuard_alterAll
  loGuard := loGuard_alterAll
  hiloFresh h := holds_resume_of_unaltered hm hh .hiloFresh h rfl pc
  link h := holds_resume_of_unaltered hm hh .linked h rfl pc
  cprs z i h := holds_resume_of_unaltered hm hh (.cpr z i) h rfl pc
  ccrs z i h := holds_resume_of_unaltered hm hh (.ccr z i) h rfl pc
  cocs z h := holds_resume_of_unaltered hm hh (.coc z) h rfl pc
  fccHigh h := holds_resume_of_unaltered hm hh .fccHigh h rfl pc
  fcsr h := holds_resume_of_unaltered hm hh .fcsr h rfl pc
  memory _ h := read_alterAll (s := { s with llbit := false }) hm h
  history _ h := find_alterAll (s := { s with llbit := false }) hh h

end Resume

/-- Settles O6: an ended run steps to its resumption, whose changes are those of the laws of the platform. -/
theorem endedRunStopsOrResumes : Obligations.EndedRunStopsOrResumes := by
  intro s r htrap
  refine ⟨step_of_unresumed htrap, fun pc changes rest henv hm hh => ?_⟩
  refine ⟨_, step_of_resumed htrap henv, rfl, rfl, ?llbit, rfl, rfl, ?env, ?params, ?keeps, ?last⟩
  case llbit => exact alterAll_llbit ..
  case env => exact alterAll_env ..
  case params => exact alterAll_params ..
  case keeps => exact { keepsUnaltered_resume (s := { s with env := rest }) hm hh pc with }
  case last =>
    rintro before c later rfl hl
    exact holds_resume_of_last (s := { s with env := rest }) hm hh pc hl

end Sys2Proof.Machine
end

section
/-! SUPPORT. Which exceptions an instruction raises (60_exceptions.md R440, R447) and what it has to do with the MIPS I
load delay slot (70_reset_and_hazards.md R500): the rule of every instruction completes alike whatever is in the slot,
and only the rule of a trapping sum raises Integer Overflow. -/

namespace Sys2Proof.Machine

/-- Settles O16: an instruction that has not completed has taken an exception, and its writes are not retired. -/
theorem exceptionsArePrecise : Obligations.ExceptionsArePrecise := by
  intro i s t htrap h hraised
  rcases exec_next h with ⟨e, rfl⟩ | ⟨traits, s', d, -, hw, rfl⟩
  · exact ⟨e, raises_takeException s e⟩
  · exact absurd (hw.trap.trans htrap) hraised

/-! ## What the rules do not depend on -/

/-- The state with another load delay and another Trap outcome: the two parts that only the step cycle looks at. -/
def State.setHidden (s : State) (x : Option LoadDelay) (y : Option TrapRecord) : State :=
  { s with loadDelay := x, trap := y }

/-- The same of the state that an effect leaves. -/
def Effect.setHidden (x : Option LoadDelay) (y : Option TrapRecord) : Effect → Effect
  | .done s d => .done (s.setHidden x y) d
  | .raise e => .raise e
  | .refuse r => .refuse r

/-- A value that does not depend on the two hidden parts. -/
def Blind {α : Sort*} (f : State → α) : Prop := ∀ s x y, f (s.setHidden x y) = f s

/-- The six instructions of 60_exceptions.md R447. -/
def isTrappingSum : Instr → Bool
  | .add _ _ _ | .addi _ _ _ | .sub _ _ _ | .dadd _ _ _ | .daddi _ _ _ | .dsub _ _ _ => true
  | _ => false

/-- The rule of an instruction does not see the hidden parts and leaves them, and overflows only if the instruction is
a trapping sum. Of a rule that is not built from others, both are seen by evaluation. -/
structure SoundRule (i : Instr) (rule : State → Effect) : Prop where
  blind : ∀ s x y, rule (s.setHidden x y) = (rule s).setHidden x y := by intros; rfl
  overflow : ∀ s, rule s = .raise .integerOverflow → isTrappingSum i = true := by intro _ h; cases h

/-- A rule that completes leaves the record of the Trap outcome. -/
theorem SoundRule.trap {i : Instr} {rule : State → Effect} (h : SoundRule i rule) {s s' : State} {d : Delay}
    (hdone : rule s = .done s' d) : s'.trap = s.trap := by
  have hblind : rule s = (rule s).setHidden s.loadDelay s.trap := h.blind s s.loadDelay s.trap
  rw [hdone, Effect.setHidden, Effect.done.injEq] at hblind
  obtain ⟨heq, -⟩ := hblind
  exact (congrArg State.trap heq :)

/-- No translation answers Integer Overflow. -/
theorem translate_ne_overflow {p : Params} {kind : AccessKind} {v : Word} :
    translate p kind v ≠ .error .integerOverflow := by
  unfold translate
  split
  · nofun
  · split
    case h_2 => split <;> nofun
    all_goals nofun

/-! ## The hidden parts beside the operations of a doubleword load -/

section Hidden
variable (s : State) (x : Option LoadDelay) (y : Option TrapRecord)

@[simp] theorem setHidden_params : (s.setHidden x y).params = s.params := rfl

@[simp] theorem remember_setHidden (kind : AccessKind) (type : AccessType) (cells : List Nat) :
    (s.setHidden x y).remember kind type cells = (s.remember kind type cells).setHidden x y := rfl

@[simp] theorem readCells_setHidden (cells : List Nat) : (s.setHidden x y).readCells cells = s.readCells cells := rfl

@[simp] theorem freeWord_setHidden (k : Nat) : (s.setHidden x y).freeWord k = s.freeWord k := rfl

@[simp] theorem fgr_setHidden (r : Reg) : (s.setHidden x y).fgr r = s.fgr r := rfl

@[simp] theorem setFgr_setHidden (r : Reg) (v : Word) :
    (s.setHidden x y).setFgr r v = (s.setFgr r v).setHidden x y := rfl

@[simp] theorem setPair_setHidden (r : Reg) (hi lo : Word32) :
    (s.setHidden x y).setPair r hi lo = (s.setPair r hi lo).setHidden x y := by
  rw [State.setPair, State.setPair, fgr_setHidden, fgr_setHidden, setFgr_setHidden, setFgr_setHidden]

@[simp] theorem copLoadDouble1_setHidden (r : Reg) (v : Word) :
    (s.setHidden x y).copLoadDouble1 r v = (s.copLoadDouble1 r v).setHidden x y := by
  unfold State.copLoadDouble1
  simp [apply_ite (State.setHidden · x y)]

@[simp] theorem complete_setHidden : (s.setHidden x y).complete = s.complete.setHidden x y := rfl

end Hidden

section Sound
variable {i : Instr}

/-! ## The ways to build a rule -/

/-- A choice by a condition that does not see the slot. -/
theorem SoundRule.ite {c : State → Prop} [∀ s, Decidable (c s)] {a b : State → Effect} (ha : SoundRule i a)
    (hb : SoundRule i b) (hc : Blind c := by intro _ _ _; rfl) :
    SoundRule i fun s => if c s then a s else b s where
  blind s x y := by
    by_cases h : c s
    · rw [if_pos h, if_pos ((hc s x y).symm ▸ h)]; exact ha.blind s x y
    · rw [if_neg h, if_neg ((hc s x y).symm ▸ h)]; exact hb.blind s x y
  overflow s h := by
    split at h
    · exact ha.overflow s h
    · exact hb.overflow s h

/-- A rule that depends on whether there is a linked location. -/
theorem SoundRule.ofLink {rule a : State → Effect} {b : Link → State → Effect} (ha : SoundRule i a)
    (hb : ∀ l, SoundRule i (b l)) (hnone : ∀ s, s.link = none → rule s = a s)
    (hsome : ∀ s l, s.link = some l → rule s = b l s) : SoundRule i rule where
  blind s x y := by
    obtain h | ⟨l, h⟩ := Option.eq_none_or_eq_some s.link
    · rw [hnone s h, hnone (s.setHidden x y) h]; exact ha.blind s x y
    · rw [hsome s l h, hsome (s.setHidden x y) l h]; exact (hb l).blind s x y
  overflow s := by
    obtain h | ⟨l, h⟩ := Option.eq_none_or_eq_some s.link
    · rw [hnone s h]; exact ha.overflow s
    · rw [hsome s l h]; exact (hb l).overflow s

theorem SoundRule.aligned {kind : AccessKind} {v : State → Word} {n : Nat} {next : State → Effect}
    (h : SoundRule i next) (hv : Blind v := by intro _ _ _; rfl) :
    SoundRule i fun s => aligned kind (v s) n (next s) :=
  .ite h { blind := fun s x y => by rw [hv]; rfl } fun s x y => by rw [hv]

theorem SoundRule.translated {kind : AccessKind} {v : State → Word} {next : State → Nat → AccessType → Effect}
    (h : ∀ pa type, SoundRule i fun s => next s pa type) (hv : Blind v := by intro _ _ _; rfl) :
    SoundRule i fun s => s.translated kind (v s) (next s) where
  blind s x y := by
    rw [hv]
    cases ht : translate s.params kind (v s) with
    | error e => rw [translated_of_error ht, translated_of_error (s := s.setHidden x y) ht]; rfl
    | ok answer =>
      rw [translated_of_ok ht, translated_of_ok (s := s.setHidden x y) ht]
      exact (h ..).blind s x y
  overflow s ho := by
    cases ht : translate s.params kind (v s) with
    | error e =>
      rw [translated_of_error ht] at ho
      cases ho
      exact absurd ht translate_ne_overflow
    | ok answer =>
      rw [translated_of_ok ht] at ho
      exact (h ..).overflow s ho

theorem SoundRule.perform {kind : AccessKind} {pa : Nat} {type : AccessType} {cells : State → List Nat}
    {next : State → State → Effect} (h : SoundRule i fun s => next s (s.remember kind type (cells s)))
    (hcells : Blind cells := by intro _ _ _; rfl) :
    SoundRule i fun s => s.perform kind pa type (cells s) (next s) :=
  .ite {} (.ite {} h) fun s x y => by rw [hcells]; rfl

/-! ## Loads and stores -/

theorem SoundRule.load {v : State → Word} {n : Nat} {next : State → Nat → State → Effect}
    (h : ∀ pa type, SoundRule i fun s =>
      next s (s.readCells (dataCells s.params pa n)) (s.remember .load type (dataCells s.params pa n)))
    (hv : Blind v := by intro _ _ _; rfl) :
    SoundRule i fun s => s.load (v s) n (next s) :=
  .aligned (.translated (fun pa type => .perform (h pa type)) hv) hv

theorem SoundRule.store {v : State → Word} {n : Nat} {w : State → Nat} {next : State → State → Effect}
    (h : ∀ pa type, SoundRule i fun s =>
      next s ((s.remember .store type (dataCells s.params pa n)).writeCells (dataCells s.params pa n) (w s)))
    (hv : Blind v := by intro _ _ _; rfl) :
    SoundRule i fun s => s.store (v s) n (w s) (next s) :=
  .aligned (.translated (fun pa type => .perform (h pa type)) hv) hv

theorem SoundRule.loadSide {side : Side} {v : State → Word} {n : Nat} {next : State → Nat → State → Effect}
    (h : ∀ pa type, SoundRule i fun s =>
      next s (s.readCells (selectedCells s.params side (v s) pa n))
        (s.remember .load type (selectedCells s.params side (v s) pa n)))
    (hv : Blind v := by intro _ _ _; rfl) :
    SoundRule i fun s => s.loadSide side (v s) n (next s) :=
  .translated (fun pa type => .perform (h pa type) fun s x y => by rw [hv]; rfl) hv

theorem soundRule_storeSide (side : Side) (base rt : Reg) (offset : BitVec 16) (n : Nat) :
    SoundRule i fun s => s.storeSide side (s.address base offset) n (s.x rt).toNat :=
  .translated fun _ _ => .perform {}

theorem soundRule_linkedLoad (base rt : Reg) (offset : BitVec 16) (size : LinkSize) (f : Nat → Word) :
    SoundRule i fun s => s.linkedLoad (s.address base offset) size rt f :=
  .aligned <| .translated fun _ _ => .ite {} <| .perform {}

theorem soundRule_conditionalStore (base rt : Reg) (offset : BitVec 16) (size : LinkSize) :
    SoundRule i fun s => s.conditionalStore (s.address base offset) size rt := by
  refine .aligned <| .translated fun pa type => .ite {} ?_
  refine .ofLink (a := fun _ => .refuse .conditionalStoreWithoutLink) {} (fun l => ?_)
    (fun s h => by rw [h]) (fun s l h => by rw [h])
  exact .ite {} <| .ite (.perform {}) {}

theorem SoundRule.loadDouble1 {ft : Reg} {v : State → Word} (hv : Blind v := by intro _ _ _; rfl) :
    SoundRule i fun s => s.load (v s) 8 fun w s' => (s'.copLoadDouble1 ft (BitVec.ofNat 64 w)).complete :=
  .load (hv := hv) fun _ _ => { blind := fun _ _ _ => by simp }

/-- The multiplies and divides. -/
theorem SoundRule.deliverHiLo {c : State → Bool} {hi lo : State → Word} (hc : Blind c := by intro _ _ _; rfl)
    (hhi : Blind hi := by intro _ _ _; rfl) (hlo : Blind lo := by intro _ _ _; rfl) :
    SoundRule i fun s => s.deliverHiLo (c s) (hi s) (lo s) := by
  simp only [State.deliverHiLo, apply_ite State.complete]
  refine .ite {} (.ite ?defined ?free fun s x y => by rw [hc])
  case defined => exact { blind := fun s x y => by rw [hhi, hlo]; rfl }
  case free => exact {}

/-! ## Every instruction -/

/-- Every instruction is issued with its traits and a sound rule, whatever is in the load delay slot. -/
theorem exec_eq_issue_sound (i : Instr) (s : State) :
    ∃ t rule, exec i s = s.issue t rule ∧
      (∀ x y, exec i (s.setHidden x y) = (s.setHidden x y).issue t rule) ∧
      HasTraits s i t ∧ SoundRule i rule := by
  unfold exec
  cases i with
  | lb base rt offset | lbu base rt offset | lh base rt offset | lhu base rt offset | lw base rt offset =>
    exact ⟨_, _, rfl, fun _ _ => rfl, { loads := loadDelay_of_loads rfl }, .load fun _ _ => {}⟩
  | lwu base rt offset | ld base rt offset =>
    exact ⟨_, _, rfl, fun _ _ => rfl, {}, .load fun _ _ => {}⟩
  | sb base rt offset | sh base rt offset | sw base rt offset | sd base rt offset =>
    exact ⟨_, _, rfl, fun _ _ => rfl, {}, .store fun _ _ => {}⟩
  | lwl base rt offset =>
    exact ⟨_, _, rfl, fun _ _ => rfl, { merges := mergeSource_left .., loads := loadDelay_of_loads rfl },
      .loadSide fun _ _ => {}⟩
  | lwr base rt offset =>
    exact ⟨_, _, rfl, fun _ _ => rfl, { merges := mergeSource_right .., loads := loadDelay_of_loads rfl },
      .loadSide fun _ _ => {}⟩
  | ldl base rt offset | ldr base rt offset =>
    exact ⟨_, _, rfl, fun _ _ => rfl, {}, .loadSide fun _ _ => {}⟩
  | swl base rt offset | swr base rt offset | sdl base rt offset | sdr base rt offset =>
    exact ⟨_, _, rfl, fun _ _ => rfl, {}, soundRule_storeSide ..⟩
  | ll base rt offset | lld base rt offset =>
    exact ⟨_, _, rfl, fun _ _ => rfl, { memory := fun h => by cases h }, soundRule_linkedLoad ..⟩
  | sc base rt offset | scd base rt offset =>
    exact ⟨_, _, rfl, fun _ _ => rfl, {}, soundRule_conditionalStore ..⟩
  | lwc1 base rt offset | lwc2 base rt offset | ldc2 base rt offset =>
    exact ⟨_, _, rfl, fun _ _ => rfl, {}, .load fun _ _ => {}⟩
  | ldc1 base rt offset =>
    exact ⟨_, _, rfl, fun _ _ => rfl, {}, .loadDouble1⟩
  | swc1 base rt offset | sdc1 base rt offset | swc2 base rt offset | sdc2 base rt offset =>
    exact ⟨_, _, rfl, fun _ _ => rfl, {}, .store fun _ _ => {}⟩
  | lwxc1 base index fd =>
    exact ⟨_, _, rfl, fun _ _ => rfl, {}, .ite (.load fun _ _ => {}) {}⟩
  | ldxc1 base index fd =>
    exact ⟨_, _, rfl, fun _ _ => rfl, {}, .ite .loadDouble1 {}⟩
  | swxc1 base index fs | sdxc1 base index fs =>
    exact ⟨_, _, rfl, fun _ _ => rfl, {}, .ite (.store fun _ _ => {}) {}⟩
  | addi rs rt imm | add rs rt rd | sub rs rt rd | daddi rs rt imm | dadd rs rt rd | dsub rs rt rd =>
    exact ⟨_, _, rfl, fun _ _ => rfl, {}, .ite { overflow := fun _ _ => rfl } {}⟩
  | mult rs rt | multu rs rt | div rs rt | divu rs rt | dmult rs rt | dmultu rs rt | ddiv rs rt | ddivu rs rt =>
    exact ⟨_, _, rfl, fun _ _ => rfl, {}, .deliverHiLo⟩
  | mthi rs | mtlo rs | jalr rs rd | bltzal rs offset | bgezal rs offset | bltzall rs offset | bgezall rs offset
  | tge rs rt code | tgeu rs rt code | tlt rs rt code | tltu rs rt code | teq rs rt code | tne rs rt code
  | tgei rs imm | tgeiu rs imm | tlti rs imm | tltiu rs imm | teqi rs imm | tnei rs imm | sync stype
  | movn rs rt rd | movz rs rt rd =>
    exact ⟨_, _, rfl, fun _ _ => rfl, {}, .ite {} {}⟩
  | movci rs cc tf rd =>
    exact ⟨_, _, rfl, fun _ _ => rfl, {}, .ite {} (.ite {} {})⟩
  -- The rest deliver, branch, complete, raise or refuse without a choice.
  | _ => exact ⟨_, _, rfl, fun _ _ => rfl, {}, {}⟩

end Sound

/-! ## What an issued instruction leaves -/

/-- An instruction that stops at neither check before its rule is admitted, and does what its rule answers. -/
theorem issue_next_cases {s t : State} {traits : Traits} {rule : State → Effect} (h : s.issue traits rule = .next t) :
    t = s.takeException .reservedInstruction ∨ (∃ z, t = s.takeException (.coprocessorUnusable z)) ∨
      Admits s traits ∧ ((∃ e, rule s = .raise e ∧ t = s.takeException e) ∨
        ∃ s' d, rule s = .done s' d ∧ t = s.retire traits s' d) := by
  unfold State.issue at h
  split at h
  case isTrue => cases h; exact .inl rfl
  case isFalse hrank =>
    split at h
    case isTrue => cases h
    case isFalse hbranch =>
      split at h
      case h_1 z _ => cases h; exact .inr (.inl ⟨z, rfl⟩)
      case h_2 hunit =>
        split at h
        case isTrue => cases h
        case isFalse hloaded =>
          have hadm : Admits s traits :=
            { level := Nat.le_of_not_lt hrank
              slot := fun hb => Decidable.byContradiction fun hd => hbranch ⟨hb, hd⟩
              usable := by simpa [Option.filter_eq_none_iff] using hunit
              loaded := Bool.eq_false_iff.2 hloaded }
          refine .inr (.inr ⟨hadm, ?_⟩)
          split at h
          case h_1 s' d hdone => cases h; exact .inr ⟨s', d, hdone, rfl⟩
          case h_2 e hraise => cases h; exact .inl ⟨e, hraise, rfl⟩
          case h_3 => cases h

/-! ## Integer Overflow (60_exceptions.md R447) -/

theorem sum_of_isTrappingSum {i : Instr} (h : isTrappingSum i = true) :
    (∃ rs rt rd, i = .add rs rt rd ∨ i = .sub rs rt rd ∨ i = .dadd rs rt rd ∨ i = .dsub rs rt rd) ∨
      ∃ rs rt immediate, i = .addi rs rt immediate ∨ i = .daddi rs rt immediate := by
  cases i with
  | add rs rt rd => exact .inl ⟨rs, rt, rd, .inl rfl⟩
  | sub rs rt rd => exact .inl ⟨rs, rt, rd, .inr (.inl rfl)⟩
  | dadd rs rt rd => exact .inl ⟨rs, rt, rd, .inr (.inr (.inl rfl))⟩
  | dsub rs rt rd => exact .inl ⟨rs, rt, rd, .inr (.inr (.inr rfl))⟩
  | addi rs rt imm => exact .inr ⟨rs, rt, imm, .inl rfl⟩
  | daddi rs rt imm => exact .inr ⟨rs, rt, imm, .inr rfl⟩
  | _ => cases h

/-- Settles O17: neither check before the rule raises Integer Overflow, and of the rules only those of the six do. -/
theorem onlySumsOverflow : Obligations.OnlySumsOverflow := by
  intro i s t r htrap h ht hr
  obtain ⟨traits, rule, hexec, -, -, hsound⟩ := exec_eq_issue_sound i s
  rw [hexec] at h
  rcases issue_next_cases h with rfl | ⟨z, rfl⟩ | ⟨-, ⟨e, hraise, rfl⟩ | ⟨s', d, hdone, rfl⟩⟩
  · cases ht; cases hr
  · cases ht; cases hr
  · cases ht
    cases hr
    exact sum_of_isTrappingSum (hsound.overflow s hraise)
  · have hkept : s'.trap = none := (hsound.trap hdone).trans htrap
    cases hkept.symm.trans ht

/-! ## The load delay slot (70_reset_and_hazards.md R500) -/

/-- Only instructions of MIPS I list their sources. -/
theorem level_of_source {i : Instr} {r : Reg} (h : r ∈ sourcesOf i) : i.level = .I := by
  cases i with
  | lb | lbu | lh | lhu | lw | lwl | lwr | lwc1 | lwc2 | swc1 | swc2 | sb | sh | sw | swl | swr | addi | addiu | slti
  | sltiu | andi | ori | xori | add | addu | sub | subu | slt | sltu | and | or | xor | nor | sll | srl | sra | sllv
  | srlv | srav | mult | multu | div | divu | mthi | mtlo | jr | jalr | beq | bne | blez | bgtz | bltz | bgez | bltzal
  | bgezal => rfl
  | _ => cases h

theorem level_of_merged {s : State} {i : Instr} {r : Reg} (h : mergedBy s i = some r) : i.level = .I := by
  cases i with
  | lwl | lwr => rfl
  | _ => cases h

/-- A use of the register in the load delay slot is seen. -/
theorem loadHazard_of_use {s : State} {i : Instr} {t : Traits} {d : LoadDelay} (ht : HasTraits s i t)
    (hd : s.loadDelay = some d) (huse : d.reg ∈ sourcesOf i ∨ (mergedBy s i = some d.reg ∧ d.merge = false)) :
    s.loadHazard t = true := by
  simpa [State.loadHazard, hd, ht.reads, ht.merges] using huse

/-- An instruction that passes the checks of its level, place and unit is refused for its use of the register in the
load delay slot. -/
theorem issue_of_loadHazard {s : State} {t : Traits} (hlevel : s.supports t.level = true)
    (hslot : t.branch = true → s.delay = .none) (husable : ∀ z, t.unit = some z → unitUsable s.params z = true)
    (hazard : s.loadHazard t = true) (rule : State → Effect) : s.issue t rule = .refused .loadDelaySlot := by
  have hrank : ¬ s.params.archLevel.rank < t.level.rank := Nat.not_lt_of_le (of_decide_eq_true hlevel)
  have hbranch : ¬ (t.branch = true ∧ s.delay ≠ .none) := fun ⟨hb, hd⟩ => hd (hslot hb)
  have hunit : (t.unit.filter fun z => !unitUsable s.params z) = none := by
    simpa [Option.filter_eq_none_iff] using husable
  rw [State.issue, if_neg hrank, if_neg hbranch, hunit]
  exact if_pos hazard

/-- What is in the load delay slot does not show in a completed instruction. -/
theorem retire_setHidden {s s' : State} {traits : Traits} {d : Delay} (x : Option LoadDelay) (h : s'.trap = s.trap) :
    (s.setHidden x s.trap).retire traits (s'.setHidden x s.trap) d = s.retire traits s' d := by
  rw [← h]
  rfl

/-- An instruction that completes with an empty load delay slot, and may follow the load before it, completes alike. -/
theorem exec_of_mayFollow {i : Instr} {s t : State} (hfollow : MayFollow s i)
    (h : exec i { s with loadDelay := none } = .next t) (ht : t.trap = none) : exec i s = .next t := by
  obtain ⟨traits, rule, hexec, hhidden, htraits, hsound⟩ := exec_eq_issue_sound i s
  have hissue : (s.setHidden none s.trap).issue traits rule = .next t := (hhidden none s.trap).symm.trans h
  rcases issue_next_cases hissue with rfl | ⟨z, rfl⟩ | ⟨hadm, ⟨e, -, rfl⟩ | ⟨s₁, d, hdone, rfl⟩⟩
  · cases ht
  · cases ht
  · cases ht
  · have hadmits : Admits s traits := { hadm with loaded := loadHazard_of_mayFollow htraits hfollow }
    rw [hsound.blind] at hdone
    cases hrule : rule s with
    | done s' d' =>
      rw [hrule] at hdone
      cases hdone
      rw [hexec, issue_of_done hadmits hrule, retire_setHidden none (hsound.trap hrule)]
    | raise e => rw [hrule] at hdone; cases hdone
    | refuse r => rw [hrule] at hdone; cases hdone

/-- Settles O15: the slot is set by the traits of the instruction, its use is refused before the rule, and no rule sees
it. -/
theorem loadDelaySlotRefused : Obligations.LoadDelaySlotRefused := by
  intro i s t
  refine ⟨fun _ h ht => ?set, fun d hd _ hslot husable huse => ?used, exec_of_mayFollow⟩
  case set =>
    obtain ⟨traits, s', d, htraits, -, rfl⟩ := exec_completes h ht
    exact htraits.loads _
  case used =>
    obtain ⟨traits, rule, hexec, htraits, -⟩ := exec_eq_issue i s
    have hlevel : traits.level = .I :=
      htraits.level.trans (huse.elim level_of_source fun ⟨hmerged, _⟩ => level_of_merged hmerged)
    rw [hexec]
    exact issue_of_loadHazard (hlevel ▸ supports_I s) (fun hb => hslot (htraits.branch ▸ hb))
      (fun z hz => husable z (htraits.unit ▸ hz)) (loadHazard_of_use htraits hd huse) rule

end Sys2Proof.Machine
end
